-- ==== Sys2Proof/Word.lean ====
section
/-! DEFINITION. The words of the CAN-frame dispatcher block: bytes, the eight-byte payload, the frame of rule R59,
the record's field names of rule R16, and the small closed sets the rules name (decode rules, dispatch outcomes,
operational modes, command issuers). Types only: every table and computation over them stands in Decode.lean or
under Machine/, where a repair can reach it. -/

namespace Sys2Proof

/-- One data byte (u8). -/
abbrev Byte := BitVec 8

/-- The payload byte space `D[0..7]`: eight u8 (R42 item 2, R59). -/
structure Payload where
  d0 : Byte
  d1 : Byte
  d2 : Byte
  d3 : Byte
  d4 : Byte
  d5 : Byte
  d6 : Byte
  d7 : Byte
  deriving DecidableEq, Repr, Inhabited

/-- A frame as the Frame Source presents it and as `FRM` holds it (R59): the zero-extended identifier, the format
bit `IDE`, the length `DLC` (u4) and the eight data bytes. -/
structure Frame where
  id : BitVec 32
  ide : Bool
  dlc : BitVec 4
  data : Payload
  deriving DecidableEq, Repr, Inhabited

/-- A frame less its identifier: the operands of a decode rule whose LUT entry fixes the identifier. -/
structure FrameBody where
  ide : Bool
  dlc : BitVec 4
  data : Payload
  deriving DecidableEq, Repr, Inhabited

/-- The frame with identifier `id` and this body. -/
def FrameBody.withId (b : FrameBody) (id : BitVec 32) : Frame :=
  { id := id, ide := b.ide, dlc := b.dlc, data := b.data }

/-- A frame's operands other than its identifier. -/
def Frame.body (f : Frame) : FrameBody :=
  { ide := f.ide, dlc := f.dlc, data := f.data }

/-- The fields of the Telemetry Record `REC`, in the index order of R16. -/
inductive Field where
  | motorTemp | invTemp | motorRpm | dcVolt | dcCurr
  | puFlags
  | bmsInFlags | bmsOutFlags | bmsCellCount | bmsChgState | bmsChgDuration | bmsLastErr
  | bmsProtFlags | bmsRedFlags | bmsBattStatus
  | modTMin | modTMax | modTAvg
  | cellTMin | cellTMax | cellTAvg
  | packCurr | packCharge | soc
  | groundSpeed
  deriving DecidableEq, Repr, Inhabited

/-- The decode rules of the LUT (R64). -/
inductive Rule where
  | ignore | motor | puflags | bms0 | bms2 | bms7 | bms8 | bms500
  deriving DecidableEq, Repr, Inhabited

/-- The outcome of a dispatch (R81). -/
inductive DispOutcome where
  | written | discarded | ignored
  deriving DecidableEq, Repr, Inhabited

/-- The operational mode of the Mode/state sink (R38). -/
inductive Mode where
  | idle | ready | off
  deriving DecidableEq, Repr, Inhabited

/-- Who gives a timer command word (R75): the host (the owner of every slot but the Activity Watchdog's, R97),
FAS, or the scheduler. -/
inductive Issuer where
  | host | fas | scheduler
  deriving DecidableEq, Repr, Inhabited

end Sys2Proof
end

