-- ==== Sys2Proof/Config.lean ====
section
/-! DEFINITION. The parameters of rule R7, the inputs the environment and the agents can choose (one atomic step of
one agent each, R6), and the model's free values. The well-formedness checks of R8 stand in Machine/Startup.lean. -/

namespace Sys2Proof

/-! ## Fixed parameters (R7, the rows marked fixed) -/

/-- `MOTOR_ID`. -/
def Config.motorId : BitVec 32 := 0x00000006#32
/-- `BEACON_ID`. -/
def Config.beaconId : BitVec 32 := 0x00000007#32
/-- `SENTINEL`. -/
def Config.sentinel : Byte := 0xFF#8
/-- `MOTOR_TEMP_BIAS`. -/
def Config.motorTempBias : Int := 40
/-- `MAX_DLC`. -/
def Config.maxDlc : Nat := 8
/-- `STD_ID_BITS`. -/
def Config.stdIdBits : Nat := 11
/-- `EXT_ID_BITS`. -/
def Config.extIdBits : Nat := 29
/-- `CB_NONE` (R25). -/
def Config.cbNone : BitVec 4 := 0#4
/-- `CB_ACTIVITY_STOPPED` (R25). -/
def Config.cbActivityStopped : BitVec 4 := 1#4

/-! ## Open and decided parameters -/

/-- `SOC_VARIANT` (R7). -/
inductive SocVariant where
  | soc1bPct | soc2bCpct
  deriving DecidableEq, Repr, Inhabited

/-- `RX_MODE` (R7). -/
inductive RxMode where
  | irq | poll
  deriving DecidableEq, Repr, Inhabited

/-- `BMS_LAYOUT` (R72): one list of payload byte indices per BMS field, most significant byte first. The lists are
unchecked data here; R73's check is part of the configuration check. -/
structure Layout where
  inFlags : List Nat
  outFlags : List Nat
  cellCount : List Nat
  chgState : List Nat
  chgDuration : List Nat
  lastErr : List Nat
  modTMin : List Nat
  modTMax : List Nat
  modTAvg : List Nat
  protFlags : List Nat
  redFlags : List Nat
  battStatus : List Nat
  cellTMin : List Nat
  cellTMax : List Nat
  cellTAvg : List Nat
  packCurr : List Nat
  packCharge : List Nat
  soc : List Nat
  deriving DecidableEq, Repr, Inhabited

/-- A type of R10, for `GROUND_SPEED_T` (R7), which R7 leaves open: an unsigned or a two's-complement number of some
width, or a mathematical integer (log entry 9). -/
inductive ValueType where
  /-- `uN`. -/
  | u (bits : Nat)
  /-- `sN`. -/
  | s (bits : Nat)
  /-- `int`. -/
  | int
  deriving DecidableEq, Repr, Inhabited

/-- The configuration of one timer slot: `TIMEOUT`, `REPEAT`, `CB` (R21, R22). -/
structure TimerInit where
  timeout : BitVec 32
  repeats : Bool
  cb : BitVec 4
  deriving DecidableEq, Repr, Inhabited

/-- The configuration taken at startup (R7). `tmrInit` lists every slot's configuration, the Activity Watchdog's
among them, so that R8 items 2 to 4 are checks on it. -/
structure Params where
  ideQualified : Bool
  bmsPrefix : BitVec 16
  layout : Layout
  bmsTempBias : Int
  socVariant : SocVariant
  nTimers : Nat
  actSlot : Nat
  actTimeout : BitVec 32
  tmrInit : List TimerInit
  rxMode : RxMode
  wakeMax : Nat
  gaugeRestOnStop : Bool
  groundSpeedT : ValueType
  deriving DecidableEq, Repr, Inhabited

/-- The example layout `EX` of 95_test_vectors.md. DESIGN CHOICE (log entry 3): it only fills the parameter before
a configuration has been taken; no step of the run phase is possible before that. -/
def Layout.placeholder : Layout :=
  { inFlags := [0], outFlags := [1], cellCount := [2, 4], chgState := [3], chgDuration := [7, 6], lastErr := [5]
    modTMin := [0], modTMax := [1], modTAvg := [2]
    protFlags := [0, 1, 2, 3], redFlags := [4], battStatus := [5]
    cellTMin := [0], cellTMax := [1], cellTAvg := [2]
    packCurr := [0, 1], packCharge := [2, 3], soc := [7] }

/-- The slot configuration of the Activity Watchdog at the decided timeout of 3200 ticks (R96, D21). -/
def TimerInit.activity : TimerInit :=
  { timeout := 3200#32, repeats := false, cb := Config.cbActivityStopped }

/-- What the parameters read as between reset and the configuration step (R149 steps 1 and 2): the decided defaults
where R7 has one, and named placeholders for the OPEN rows. DESIGN CHOICE (log entry 3); replaced whole by the
configuration step before anything can consult them. -/
def Params.placeholder : Params :=
  { ideQualified := false, bmsPrefix := 0x1810#16, layout := Layout.placeholder, bmsTempBias := 100
    socVariant := .soc1bPct, nTimers := 1, actSlot := 0, actTimeout := 3200#32, tmrInit := [TimerInit.activity]
    rxMode := .irq, wakeMax := 1, gaugeRestOnStop := false, groundSpeedT := .int }

/-! ## Inputs and steps -/

/-- The Frame Source's answer to one receive attempt (R116). -/
inductive Answer where
  | frame (f : Frame)
  | none
  | error
  deriving DecidableEq, Repr, Inhabited

/-- What reset leaves to a draw (R41): the time base, the two sink variables and the frame register. -/
structure ResetDraws where
  nowInit : BitVec 32
  mode : Mode
  autoUpdate : Bool
  frm : Frame
  deriving DecidableEq, Repr, Inhabited

/-- One atomic step of one agent (R6), with every choice the rules leave to that agent or to the environment. -/
inductive Act where
  /-- The time base: one tick (R26). -/
  | tick
  /-- The Frame Source's interrupt (R118). -/
  | irq
  /-- FAS leaves `S_WAIT` by taking a wake (R119). -/
  | waitTake
  /-- FAS leaves `S_WAIT` on its short timeout (R119). -/
  | waitTimeout
  /-- FAS leaves `S_WAIT` by polling (R119). -/
  | waitPoll
  /-- One receive attempt with the Frame Source's answer (R120). -/
  | recv (a : Answer)
  /-- One pending record write, chosen by FAS (R122). -/
  | write (f : Field) (v : Int)
  /-- FAS leaves `S_DISPATCH` (R123). -/
  | endDispatch
  /-- FAS's beacon check (R124). -/
  | beaconCheck
  /-- The scheduler's next check (R105). -/
  | schedCheck
  /-- An agent puts a command word on the timer engine's command port (R74, R75). -/
  | command (by_ : Issuer) (w : BitVec 16)
  /-- A reader reads record field `f` (R45). -/
  | read (f : Nat)
  /-- The host reads a register (R34). -/
  | regRead (idx : Nat)
  /-- The host reads `PEND`, which R40 calls readable and R34 gives no index (log entry 22). -/
  | pendRead
  /-- The host writes a register (R34). -/
  | regWrite (idx : Nat) (v : BitVec 32)
  /-- The host writes `MODE` (R38). -/
  | setMode (m : Mode)
  /-- The host writes `AUTO_UPDATE` (R38). -/
  | setAutoUpdate (b : Bool)
  /-- The external speed module writes `GROUND_SPEED` (R19). -/
  | setGroundSpeed (v : Int)
  /-- Startup step 2: the configuration is taken (R149). -/
  | takeConfig (c : Params)
  /-- Startup step 3: the Frame Source answers `configure` with success or failure (R150). -/
  | configure (ok : Bool)
  /-- A restart (R153), with what reset leaves to a draw. -/
  | restart (d : ResetDraws)
  deriving DecidableEq, Repr, Inhabited

/-! ## Free values -/

/-- FREE VALUE (log entry 1): which step comes next when no step is scheduled in State. No value of it is known, so
a claim about a step taken with nothing scheduled holds for every choice. -/
opaque Config.drawAct : Nat → Act

/-- FREE VALUE (log entry 12): what `WAKE_STATUS` reads as for a wake count that does not fit its 32 bits. -/
opaque Config.wideWakeStatus : Nat → BitVec 32

end Sys2Proof
end

