-- ==== Sys2Proof/Syntax.lean ====
section
/-! DEFINITION. The instructions: one constructor per row of spec/opcode_table.json. A decode-rule row is a frame
whose identifier the LUT entry fixes (R64), so its operands are the rest of the frame; `DR_IGNORE` is selected by
every other identifier, so its identifier is an operand too. A command row is a timer command word with its slot
(R74, R75). -/

namespace Sys2Proof

inductive Instr where
  /-- `DR_MOTOR`, R85. -/
  | drMotor (b : FrameBody)
  /-- `DR_PUFLAGS`, R86. -/
  | drPuflags (b : FrameBody)
  /-- `DR_BMS0`, R88. -/
  | drBms0 (b : FrameBody)
  /-- `DR_BMS2`, R89. -/
  | drBms2 (b : FrameBody)
  /-- `DR_BMS7`, R90. -/
  | drBms7 (b : FrameBody)
  /-- `DR_BMS8`, R91. -/
  | drBms8 (b : FrameBody)
  /-- `DR_BMS500`, R92. -/
  | drBms500 (b : FrameBody)
  /-- `DR_IGNORE`, R93. -/
  | drIgnore (id : BitVec 32) (b : FrameBody)
  /-- `START k`, R100. -/
  | start (k : BitVec 8)
  /-- `STOP k`, R101. -/
  | stop (k : BitVec 8)
  /-- `RESET k`, R102. -/
  | reset (k : BitVec 8)
  /-- `KICK k`, R103. -/
  | kick (k : BitVec 8)
  /-- `CHECK k`, R104. -/
  | check (k : BitVec 8)
  deriving DecidableEq, Repr, Inhabited

end Sys2Proof
end

