-- ==== Sys2Proof/WellFormed.lean ====
section
/-! DEFINITION. When an instruction is well formed under a configuration: the frame it stands for is a frame the
Frame Source may present (R60) that selects this rule and no earlier one (R64, R65), or the command word it stands
for is not reserved (R76). Written from the identifiers and not from the LUT, so that "decoding an encoding gives
the instruction back" says something about both. -/

namespace Sys2Proof

/-- R60 for one identifier: it fits its format, 11 bits when standard and 29 bits when extended. -/
def idFits (ide : Bool) (id : BitVec 32) : Bool :=
  id.toNat < 2 ^ (if ide then Config.extIdBits else Config.stdIdBits)

/-- R60 for a frame with identifier `id` and this body. -/
def FrameBody.wf (b : FrameBody) (id : BitVec 32) : Bool :=
  b.dlc.toNat ≤ Config.maxDlc && idFits b.ide id

/-- The family identifier `{BMS_PREFIX, sub}` (R64, R66). -/
def Params.bmsId (p : Params) (sub : BitVec 16) : BitVec 32 := p.bmsPrefix ++ sub

/-- The format bit an exact-match entry asks for (R64): standard, when `IDE_QUALIFIED`. -/
def Params.stdOk (p : Params) (ide : Bool) : Bool := !p.ideQualified || !ide

/-- The format bit a family entry asks for (R64): extended, when `IDE_QUALIFIED`. -/
def Params.extOk (p : Params) (ide : Bool) : Bool := !p.ideQualified || ide

/-- An identifier the two exact-match entries claim for this format (entries 0 and 1 of R64). -/
def Params.claimedExact (p : Params) (ide : Bool) (id : BitVec 32) : Bool :=
  p.stdOk ide && (id == Config.motorId || id == Config.beaconId)

/-- An identifier the five family entries claim for this format (entries 2 to 6 of R64). -/
def Params.claimedFamily (p : Params) (ide : Bool) (id : BitVec 32) : Bool :=
  p.extOk ide && [0x0000#16, 0x0002#16, 0x0007#16, 0x0008#16, 0x0500#16].any (fun sub => id == p.bmsId sub)

/-- A family frame with this sub-address: a frame, of the family's format, that no exact-match entry takes first
(with `BMS_PREFIX = 0`, identifier 7 is the beacon's, R66). -/
def Params.bmsWf (p : Params) (sub : BitVec 16) (b : FrameBody) : Bool :=
  b.wf (p.bmsId sub) && p.extOk b.ide && !p.claimedExact b.ide (p.bmsId sub)

/-- A well-formed instruction under the configuration `p`. -/
def Instr.wf (p : Params) : Instr → Bool
  | .drMotor b => b.wf Config.motorId && p.stdOk b.ide
  | .drPuflags b => b.wf Config.beaconId && p.stdOk b.ide
  | .drBms0 b => p.bmsWf 0x0000#16 b
  | .drBms2 b => p.bmsWf 0x0002#16 b
  | .drBms7 b => p.bmsWf 0x0007#16 b
  | .drBms8 b => p.bmsWf 0x0008#16 b
  | .drBms500 b => p.bmsWf 0x0500#16 b
  | .drIgnore id b => b.wf id && !p.claimedExact b.ide id && !p.claimedFamily b.ide id
  | .start k => k.toNat < p.nTimers && k.toNat != p.actSlot
  | .stop k => k.toNat < p.nTimers && k.toNat != p.actSlot
  | .reset k => k.toNat < p.nTimers && k.toNat != p.actSlot
  | .kick k => k.toNat < p.nTimers && k.toNat == p.actSlot
  | .check k => k.toNat < p.nTimers

end Sys2Proof
end

