-- ==== Sys2Proof/Decode.lean ====
section
/-! DEFINITION. Decoding: the LUT that maps a frame to a decode rule (R63 to R67) and the 16-bit timer command word
(R74 to R76), total and rejecting by name; the byte images of both ports; and the encoder. -/

namespace Sys2Proof

/-! ## Rejections -/

/-- Why a command word is reserved, in the order of R76's list (R139 reports the first that applies). -/
inductive CmdReason where
  | op | rsv | slot | issuer
  deriving DecidableEq, Repr, Inhabited

/-- Why the decoder gives no instruction. -/
inductive DecodeError where
  /-- A frame that is not well formed (R60). -/
  | badFrame
  /-- A reserved command word, or one from an issuer that may not give it (R76). -/
  | badCommand (why : CmdReason)
  /-- A byte image whose length is not the port's. -/
  | badLength
  deriving DecidableEq, Repr, Inhabited

/-! ## Frames -/

/-- A well-formed frame (R60). -/
def Frame.wf (f : Frame) : Bool :=
  decide (f.dlc.toNat ≤ 8) && (if f.ide then decide (f.id.toNat < 2 ^ 29) else decide (f.id.toNat < 2 ^ 11))

/-- One LUT entry (R64): `ideReq` is `none` where the table says any. -/
structure LutEntry where
  rule : Rule
  key : BitVec 32
  mask : BitVec 32
  ideReq : Option Bool
  deriving DecidableEq, Repr

/-- The family key `{P, sub}` of R64. -/
def familyKey (p : Params) (sub : BitVec 16) : BitVec 32 := p.bmsPrefix ++ sub

/-- The decode LUT: eight entries in priority order (R64). -/
def lut (p : Params) : List LutEntry :=
  [ ⟨.motor, 0x00000006#32, 0xFFFFFFFF#32, some false⟩,
    ⟨.puflags, 0x00000007#32, 0xFFFFFFFF#32, some false⟩,
    ⟨.bms0, familyKey p 0x0000#16, 0xFFFFFFFF#32, some true⟩,
    ⟨.bms2, familyKey p 0x0002#16, 0xFFFFFFFF#32, some true⟩,
    ⟨.bms7, familyKey p 0x0007#16, 0xFFFFFFFF#32, some true⟩,
    ⟨.bms8, familyKey p 0x0008#16, 0xFFFFFFFF#32, some true⟩,
    ⟨.bms500, familyKey p 0x0500#16, 0xFFFFFFFF#32, some true⟩,
    ⟨.ignore, 0x00000000#32, 0x00000000#32, none⟩ ]

/-- An entry takes a frame (the test in R65's loop). -/
def LutEntry.takes (p : Params) (f : Frame) (e : LutEntry) : Bool :=
  (f.id &&& e.mask) == e.key &&
    (!p.ideQualified || (match e.ideReq with | none => true | some b => b == f.ide))

/-- The rule of the first entry that takes the frame (R65). The last entry takes every frame, so the default below
is never used. -/
def selectIn (p : Params) (f : Frame) : List LutEntry → Rule
  | [] => .ignore
  | e :: rest => if e.takes p f then e.rule else selectIn p f rest

/-- `select(FRM)` (R65). -/
def select (p : Params) (f : Frame) : Rule := selectIn p f (lut p)

/-- The rule codes of R69. -/
def Rule.code : Rule → BitVec 3
  | .ignore => 0#3
  | .motor => 1#3
  | .puflags => 2#3
  | .bms0 => 3#3
  | .bms2 => 4#3
  | .bms7 => 5#3
  | .bms8 => 6#3
  | .bms500 => 7#3

/-- The instruction a rule stands for on a frame. -/
def Rule.instr (f : Frame) : Rule → Instr
  | .ignore => .drIgnore f.id f.body
  | .motor => .drMotor f.body
  | .puflags => .drPuflags f.body
  | .bms0 => .drBms0 f.body
  | .bms2 => .drBms2 f.body
  | .bms7 => .drBms7 f.body
  | .bms8 => .drBms8 f.body
  | .bms500 => .drBms500 f.body

/-- Decoding a frame: a frame that is not well formed is refused (R60), every other selects one rule (R65). -/
def decodeFrame (p : Params) (f : Frame) : Except DecodeError Instr :=
  if f.wf then .ok ((select p f).instr f) else .error .badFrame

/-- The beacon test of R68 and R124, apart from the LUT. -/
def isBeacon (p : Params) (f : Frame) : Bool :=
  f.id == 0x00000007#32 && (!p.ideQualified || !f.ide)

/-! ## Command words -/

/-- `op`, bits [15:12] (R74). -/
def cmdOp (w : BitVec 16) : BitVec 4 := w.extractLsb' 12 4
/-- `rsv`, bits [11:8] (R74). -/
def cmdRsv (w : BitVec 16) : BitVec 4 := w.extractLsb' 8 4
/-- `slot`, bits [7:0] (R74). -/
def cmdSlot (w : BitVec 16) : BitVec 8 := w.extractLsb' 0 8

/-- The only issuer a command op is admitted from (R75): FAS gives KICK, the scheduler CHECK, the owner the rest. -/
def opIssuer (op : BitVec 4) : Issuer :=
  if op = 0x4#4 then .fas else if op = 0x5#4 then .scheduler else .host

/-- R76's issuer conditions: the issuer is the command's, and START, STOP and RESET never go to `ACT_SLOT`. -/
def issuerOk (p : Params) (by_ : Issuer) (op : BitVec 4) (slot : BitVec 8) : Bool :=
  by_ == opIssuer op && (by_ != .host || slot.toNat != p.actSlot)

/-- The command of an op code, for the ops R75 lists. -/
def cmdInstr (op : BitVec 4) (slot : BitVec 8) : Option Instr :=
  if op = 0x1#4 then some (.start slot)
  else if op = 0x2#4 then some (.stop slot)
  else if op = 0x3#4 then some (.reset slot)
  else if op = 0x4#4 then some (.kick slot)
  else if op = 0x5#4 then some (.check slot)
  else none

/-- Decoding a command word from an issuer: reserved words are refused with the first reason in R76's order, op,
then `rsv`, then slot, then issuer (R139). -/
def decodeCommand (p : Params) (by_ : Issuer) (w : BitVec 16) : Except DecodeError Instr :=
  match cmdInstr (cmdOp w) (cmdSlot w) with
  | none => .error (.badCommand .op)
  | some i =>
    if cmdRsv w ≠ 0#4 then .error (.badCommand .rsv)
    else if p.nTimers ≤ (cmdSlot w).toNat then .error (.badCommand .slot)
    else if cmdOp w = 0x4#4 ∧ (cmdSlot w).toNat ≠ p.actSlot then .error (.badCommand .slot)
    else if issuerOk p by_ (cmdOp w) (cmdSlot w) then .ok i
    else .error (.badCommand .issuer)

/-- The KICK word for `ACT_SLOT`, which FAS issues (R103, R124). -/
def kickWord (p : Params) : BitVec 16 := 0x40#8 ++ BitVec.ofNat 8 p.actSlot

/-- The CHECK word for a slot, which the scheduler issues (R104, R105). -/
def checkWord (k : BitVec 8) : BitVec 16 := 0x50#8 ++ k

/-! ## The byte images of the two ports -/

/-- The port a byte image comes in on: the receive port, or the timer engine's command port with its issuer. -/
inductive Port where
  | frames
  | commands (by_ : Issuer)
  deriving DecidableEq, Repr, Inhabited

/-- The frame in a byte image. The rules give a frame's fields and their widths but no image, so this one is the
model's (log entry 4): the identifier in four bytes, low byte first; a byte with `DLC` in bits [3:0], `IDE` in bit 4
and nothing in the bits above; the eight data bytes. -/
def frameOfBytes : List Byte → Option Frame
  | [i0, i1, i2, i3, h, d0, d1, d2, d3, d4, d5, d6, d7] =>
    some { id := i3 ++ i2 ++ i1 ++ i0, ide := h.getLsbD 4, dlc := h.extractLsb' 0 4
           data := ⟨d0, d1, d2, d3, d4, d5, d6, d7⟩ }
  | _ => none

/-- The command word in a byte image: two bytes, low byte first (log entry 4). -/
def commandOfBytes : List Byte → Option (BitVec 16)
  | [lo, hi] => some (hi ++ lo)
  | _ => none

/-- Decoding a byte image on a port. -/
def decode (p : Params) (port : Port) (bytes : List Byte) : Except DecodeError Instr :=
  match port with
  | .frames =>
    match frameOfBytes bytes with
    | some f => decodeFrame p f
    | none => .error .badLength
  | .commands by_ =>
    match commandOfBytes bytes with
    | some w => decodeCommand p by_ w
    | none => .error .badLength

/-! ## The encoder -/

/-- The byte image of a frame. -/
def frameBytes (f : Frame) : List Byte :=
  [ f.id.extractLsb' 0 8, f.id.extractLsb' 8 8, f.id.extractLsb' 16 8, f.id.extractLsb' 24 8,
    0#3 ++ BitVec.ofBool f.ide ++ f.dlc,
    f.data.d0, f.data.d1, f.data.d2, f.data.d3, f.data.d4, f.data.d5, f.data.d6, f.data.d7 ]

/-- The byte image of a command word. -/
def commandBytes (w : BitVec 16) : List Byte := [w.extractLsb' 0 8, w.extractLsb' 8 8]

/-- The port and issuer an instruction comes in on (R75 for the commands). -/
def Instr.port : Instr → Port
  | .drMotor _ => .frames
  | .drPuflags _ => .frames
  | .drBms0 _ => .frames
  | .drBms2 _ => .frames
  | .drBms7 _ => .frames
  | .drBms8 _ => .frames
  | .drBms500 _ => .frames
  | .drIgnore _ _ => .frames
  | .start _ => .commands .host
  | .stop _ => .commands .host
  | .reset _ => .commands .host
  | .kick _ => .commands .fas
  | .check _ => .commands .scheduler

/-- The bytes of an instruction: its LUT entry's identifier (R64) with its operands, or its pattern (R75). -/
def encode (p : Params) : Instr → List Byte
  | .drMotor b => frameBytes (b.withId 0x00000006#32)
  | .drPuflags b => frameBytes (b.withId 0x00000007#32)
  | .drBms0 b => frameBytes (b.withId (familyKey p 0x0000#16))
  | .drBms2 b => frameBytes (b.withId (familyKey p 0x0002#16))
  | .drBms7 b => frameBytes (b.withId (familyKey p 0x0007#16))
  | .drBms8 b => frameBytes (b.withId (familyKey p 0x0008#16))
  | .drBms500 b => frameBytes (b.withId (familyKey p 0x0500#16))
  | .drIgnore id b => frameBytes (b.withId id)
  | .start k => commandBytes (0x10#8 ++ k)
  | .stop k => commandBytes (0x20#8 ++ k)
  | .reset k => commandBytes (0x30#8 ++ k)
  | .kick k => commandBytes (0x40#8 ++ k)
  | .check k => commandBytes (0x50#8 ++ k)

/-! ## Words as the opcode table numbers them -/

/-- A configuration under which the table's words have their meaning (log entry 5): the placeholder parameters,
with a registry that holds the word's slot, and `ACT_SLOT` that slot for a KICK word and another slot otherwise. -/
def tableParams (nbits w : Nat) : Params :=
  if nbits ≤ 16 then
    let k := (cmdSlot (BitVec.ofNat 16 w)).toNat
    let n := max 2 (k + 1)
    let act := if cmdOp (BitVec.ofNat 16 w) = 0x4#4 then k else if k = 0 then 1 else 0
    { Params.placeholder with
      nTimers := n, actSlot := act
      tmrInit := (List.replicate n { timeout := 100#32, repeats := false, cb := 0#4 }).set act TimerInit.activity }
  else Params.placeholder

/-- The bytes of a table word on the receive port. A word of 32 bits or fewer is the LUT key alone (R63): the length
and the data are zero, and the format is the one its identifier fits. A longer word is the whole image. -/
def tableFrameBytes (nbits w : Nat) : List Byte :=
  if nbits ≤ 32 then
    frameBytes
      { id := BitVec.ofNat 32 w, ide := decide (2 ^ 11 ≤ w % 2 ^ 32), dlc := 0#4
        data := ⟨0#8, 0#8, 0#8, 0#8, 0#8, 0#8, 0#8, 0#8⟩ }
  else (List.range 13).map (fun i => BitVec.ofNat 8 (w >>> (8 * i)))

/-- The issuer a table command word is put on the port by: its op's (R75). -/
def tableIssuer (w : Nat) : Issuer := opIssuer (cmdOp (BitVec.ofNat 16 w))

/-- The port and the bytes of a word numbered as spec/opcode_table.json numbers it: 16 bits or fewer is a timer
command word, more is a frame. -/
def tableImage (nbits w : Nat) : Port × List Byte :=
  if nbits ≤ 16 then (.commands (tableIssuer w), commandBytes (BitVec.ofNat 16 w))
  else (.frames, tableFrameBytes nbits w)

/-- The instruction the decoder reads from a word numbered as spec/opcode_table.json numbers it. -/
def decodeTableWord (nbits w : Nat) : Option Instr :=
  match decode (tableParams nbits w) (tableImage nbits w).1 (tableImage nbits w).2 with
  | .ok i => some i
  | .error _ => none

end Sys2Proof
end

