-- ==== Sys2Proof/Machine/State.lean ====
section
/-! DEFINITION. The state of the block (R13), the reasons a step can stop (R12, R133), and reset (R41, R149). State is
plain data. -/

namespace Sys2Proof.Machine

/-- Where the boot order of R149 stands; the configuration phase of R143 is the first two. -/
inductive Phase where
  /-- Reset has been taken, no configuration yet (before R149 step 2). -/
  | config
  /-- The configuration is taken, `configure` is still to be answered (before R149 step 3). -/
  | setup
  /-- The run phase (R149 step 4, R143). -/
  | run
  deriving DecidableEq, Repr, Inhabited

/-- `sync_state` (R29). -/
inductive SyncState where
  | wait | recv | dispatch | kick
  deriving DecidableEq, Repr, Inhabited

/-- One timer slot (R21). -/
structure Timer where
  timeout : BitVec 32
  repeats : Bool
  cb : BitVec 4
  running : Bool
  lastReset : BitVec 32
  deriving DecidableEq, Repr, Inhabited

/-- The Telemetry Record (R16), each field at its width: s16 and u16 fields are 16 bits, u8 fields 8, the protection
flags 32. How a field's bits are read as a number stands in Machine/Record.lean. The type of `GROUND_SPEED` is a
parameter (R7), so that field is an integer, kept among the parameter's values (log entry 9). -/
structure Rec where
  motorTemp : BitVec 16
  invTemp : BitVec 16
  motorRpm : BitVec 16
  dcVolt : BitVec 16
  dcCurr : BitVec 16
  puFlags : BitVec 16
  bmsInFlags : BitVec 8
  bmsOutFlags : BitVec 8
  bmsCellCount : BitVec 16
  bmsChgState : BitVec 8
  bmsChgDuration : BitVec 16
  bmsLastErr : BitVec 8
  bmsProtFlags : BitVec 32
  bmsRedFlags : BitVec 8
  bmsBattStatus : BitVec 8
  modTMin : BitVec 16
  modTMax : BitVec 16
  modTAvg : BitVec 16
  cellTMin : BitVec 16
  cellTMax : BitVec 16
  cellTAvg : BitVec 16
  packCurr : BitVec 16
  packCharge : BitVec 16
  soc : BitVec 16
  groundSpeed : Int
  deriving DecidableEq, Repr, Inhabited

/-- The record at reset: every field zero (R14, R41). -/
def Rec.zero : Rec :=
  { motorTemp := 0, invTemp := 0, motorRpm := 0, dcVolt := 0, dcCurr := 0, puFlags := 0
    bmsInFlags := 0, bmsOutFlags := 0, bmsCellCount := 0, bmsChgState := 0, bmsChgDuration := 0, bmsLastErr := 0
    bmsProtFlags := 0, bmsRedFlags := 0, bmsBattStatus := 0
    modTMin := 0, modTMax := 0, modTAvg := 0, cellTMin := 0, cellTMax := 0, cellTAvg := 0
    packCurr := 0, packCharge := 0, soc := 0, groundSpeed := 0 }

/-- The output events of R134. -/
inductive Event where
  | echo (f : Frame) (rule : Rule) (outcome : DispOutcome)
  | transportFault
  | activityStarted
  | activityStopped
  | modeSet (m : Mode)
  | autoUpdate (enable : Bool)
  | gaugeStandby (standby : Bool)
  | gaugeRest
  | timerExpired (slot : BitVec 8) (cb : BitVec 4)
  deriving DecidableEq, Repr, Inhabited

/-- What a read on a port answers: a number, or the pending writes (R40, R45; log entries 2 and 22). -/
inductive Reply where
  | value (v : Int)
  | pending (w : List (Field × Int))
  deriving DecidableEq, Repr, Inhabited

/-- The state of the block. The fields from `phase` to `evh` are the rules' own; `script`, `drawCnt` and `reply` are
the model's: the steps the environment and the agents have still to take, how many free choices have been used, and
the answer the last port read gave (log entries 1 and 2). -/
structure State where
  /-- The boot order's phase (R143, R149). -/
  phase : Phase
  /-- The configuration (R7), taken at startup and then fixed. -/
  cfg : Params
  /-- `REC` (R14 to R16). -/
  record : Rec
  /-- `TMR[0..NTIMERS-1]` (R21). -/
  tmr : List Timer
  /-- `NOW` (R26). -/
  now : BitVec 32
  /-- `sync_state` (R29). -/
  sync : SyncState
  /-- `FRM` (R30). Outside `S_DISPATCH` and `S_KICK` R30 gives it no meaning; the model keeps the last frame there
  (DESIGN CHOICE, log entry 23). -/
  frm : Frame
  /-- `PEND` (R31), in the order of the rule's write set; which element goes next is free (R122). -/
  pend : List (Field × Int)
  /-- `WAKE_CNT` (R32). -/
  wakeCnt : Nat
  /-- `SCH_IDX` (R33), the eight bits `SCH_STATUS` shows (R34). -/
  schIdx : BitVec 8
  /-- `MON_EN` (R34). -/
  monEn : Bool
  /-- `MON_FILTER_EN` (R34). -/
  monFilterEn : Bool
  /-- `MON_ID` (R34). -/
  monId : BitVec 29
  /-- `MODE` (R38). -/
  mode : Mode
  /-- `AUTO_UPDATE` (R38). -/
  autoUpdate : Bool
  /-- `EVH` (R39), oldest first. -/
  evh : List Event
  /-- The steps still to be taken, the next one first (model). -/
  script : List Act
  /-- How many free choices have been used (model). -/
  drawCnt : Nat
  /-- What the last read on the reader port or the host port answered (model). -/
  reply : Option Reply
  deriving DecidableEq, Repr, Inhabited

/-- Why a step ends in a fault (R133). Both are safe: the rules say the first cannot happen (R82), and the second
needs a layout R73 refuses at startup, so the model only stops where the block has no run. -/
inductive Fault where
  /-- A decode rule computes a value that does not fit its field (R82). Raised on entry to dispatch. Safe. -/
  | fieldRange
  /-- A layout list names a payload byte outside 0..7 (refused at startup by R73). Raised on entry to dispatch. Safe. -/
  | payloadIndex
  deriving DecidableEq, Repr, Inhabited

/-- Why a step is refused (R133). Every one is safe: the rules give the input no effect. -/
inductive Refusal where
  /-- An instruction this model gives no meaning to, by its mnemonic. Raised by exec's refused arms. Safe. -/
  | notModelled (mnemonic : String)
  /-- A configuration that fails a check of R8. Raised by startup step 2. Safe. -/
  | badConfig
  /-- A frame that is not well formed (R60). Raised by a receive. Safe. -/
  | badFrame
  /-- A reserved command word, or one from an issuer that may not give it (R76). Raised on the command port. Safe. -/
  | badCommand (why : CmdReason)
  /-- A read of what is no record field (R45). Raised on the reader port. Safe. -/
  | badField
  /-- A host write of a reserved, RO or cfg register, or with a reserved bit set (R34, R36). Safe. -/
  | badRegWrite
  /-- A scheduled step that is not enabled, so no run of the block has it (R6, R119 to R124, R143). Safe. -/
  | notEnabled
  deriving DecidableEq, Repr, Inhabited

/-- A slot after reset and configuration: its cfg fields set, stopped, `LAST_RESET` zero (R22, R41). -/
def TimerInit.slot (t : TimerInit) : Timer :=
  { timeout := t.timeout, repeats := t.repeats, cb := t.cb, running := false, lastReset := 0#32 }

/-- The state right after reset (R149 step 1), with what R41 leaves to a draw. The boot order starts at the
configuration phase; until a configuration is taken the parameters are placeholders nothing consults (log entry 3). -/
def State.resetWith (d : ResetDraws) : State :=
  { phase := .config
    cfg := Params.placeholder
    record := Rec.zero
    tmr := Params.placeholder.tmrInit.map TimerInit.slot
    now := d.nowInit
    sync := .wait
    frm := d.frm
    pend := []
    wakeCnt := 0
    schIdx := 0#8
    monEn := false
    monFilterEn := false
    monId := 0#29
    mode := d.mode
    autoUpdate := d.autoUpdate
    evh := []
    script := []
    drawCnt := 0
    reply := none }

/-- The values `State.reset` gives what R41 leaves to a draw. DESIGN CHOICE (log entry 7): all zero. -/
def ResetDraws.zero : ResetDraws :=
  { nowInit := 0#32, mode := .idle, autoUpdate := false
    frm := { id := 0#32, ide := false, dlc := 0#4, data := ⟨0#8, 0#8, 0#8, 0#8, 0#8, 0#8, 0#8, 0#8⟩ } }

/-- The machine right after reset. -/
def State.reset : State := State.resetWith ResetDraws.zero

end Sys2Proof.Machine
end

