-- ==== Sys2Proof/Machine/Flags.lean ====
section
/-! DEFINITION. The block's flags (R37): it has no condition codes, its flags are a slot's `RUNNING` and `REPEAT`, the
On/Off state of the Activity Watchdog, and the monitor's two enables. Here are the tests on them, with the elapsed
time the expiry test compares. -/

namespace Sys2Proof.Machine

/-- `elapsed(k)` (R27): a difference modulo 2^32. -/
def elapsed (now : BitVec 32) (t : Timer) : BitVec 32 := now - t.lastReset

/-- A slot is expired (R98). -/
def expired (now : BitVec 32) (t : Timer) : Bool := t.running && decide (t.timeout ≤ elapsed now t)

/-- The Activity Watchdog is On (R28). -/
def State.isOn (s : State) : Bool :=
  match s.tmr[s.cfg.actSlot]? with
  | some t => t.running
  | none => false

/-- The monitor passes this frame (R121): it is enabled, and it has no filter or the identifier is the filter's. -/
def State.monitorPasses (s : State) (f : Frame) : Bool :=
  s.monEn && (!s.monFilterEn || f.id == s.monId.setWidth 32)

/-- `sync_state`'s code (R29). -/
def syncCode : SyncState → BitVec 2
  | .wait => 0#2
  | .recv => 1#2
  | .dispatch => 2#2
  | .kick => 3#2

/-- `MODE`'s code (R38). -/
def modeCode : Mode → BitVec 2
  | .idle => 0#2
  | .ready => 1#2
  | .off => 2#2

/-- The outcome codes of R81. -/
def outcomeCode : DispOutcome → BitVec 2
  | .written => 0#2
  | .discarded => 1#2
  | .ignored => 2#2

/-- The event codes of R134. -/
def eventCode : Event → Nat
  | .echo _ _ _ => 0
  | .transportFault => 1
  | .activityStarted => 2
  | .activityStopped => 3
  | .modeSet _ => 4
  | .autoUpdate _ => 5
  | .gaugeStandby _ => 6
  | .gaugeRest => 7
  | .timerExpired _ _ => 8

/-- The arguments of an event as the numbers R134 lists. -/
def eventArgs : Event → List Nat
  | .echo f r o =>
    [ f.id.toNat, f.ide.toNat, f.dlc.toNat, f.data.d0.toNat, f.data.d1.toNat, f.data.d2.toNat, f.data.d3.toNat,
      f.data.d4.toNat, f.data.d5.toNat, f.data.d6.toNat, f.data.d7.toNat, r.code.toNat, (outcomeCode o).toNat ]
  | .transportFault => []
  | .activityStarted => []
  | .activityStopped => []
  | .modeSet m => [(modeCode m).toNat]
  | .autoUpdate b => [b.toNat]
  | .gaugeStandby b => [b.toNat]
  | .gaugeRest => []
  | .timerExpired k c => [k.toNat, c.toNat]

end Sys2Proof.Machine
end

