-- ==== Sys2Proof/Machine/Record.lean ====
section
/-! DEFINITION. The Telemetry Record as a register file (R14 to R20): the field table of R16 and the one read and the
one write of a field. -/

namespace Sys2Proof.Machine

/-- The field table's index column (R16). -/
def fieldIdx : Field → Nat
  | .motorTemp => 0 | .invTemp => 1 | .motorRpm => 2 | .dcVolt => 3 | .dcCurr => 4
  | .puFlags => 5
  | .bmsInFlags => 6 | .bmsOutFlags => 7 | .bmsCellCount => 8 | .bmsChgState => 9 | .bmsChgDuration => 10
  | .bmsLastErr => 11
  | .bmsProtFlags => 12 | .bmsRedFlags => 13 | .bmsBattStatus => 14
  | .modTMin => 15 | .modTMax => 16 | .modTAvg => 17
  | .cellTMin => 18 | .cellTMax => 19 | .cellTAvg => 20
  | .packCurr => 21 | .packCharge => 22 | .soc => 23
  | .groundSpeed => 24

/-- The fields in index order. -/
def allFields : List Field :=
  [ .motorTemp, .invTemp, .motorRpm, .dcVolt, .dcCurr, .puFlags,
    .bmsInFlags, .bmsOutFlags, .bmsCellCount, .bmsChgState, .bmsChgDuration, .bmsLastErr,
    .bmsProtFlags, .bmsRedFlags, .bmsBattStatus,
    .modTMin, .modTMax, .modTAvg, .cellTMin, .cellTMax, .cellTAvg,
    .packCurr, .packCharge, .soc, .groundSpeed ]

/-- The field with an index, if there is one (R45: `f` in 0..24). -/
def fieldOfIdx (n : Nat) : Option Field := allFields[n]?

/-- The type column of R16: a field's signedness and its width in bits; `GROUND_SPEED_T` is a parameter. -/
def fieldType : Field → Option (Bool × Nat)
  | .motorTemp => some (true, 16) | .invTemp => some (true, 16) | .motorRpm => some (true, 16)
  | .dcVolt => some (false, 16) | .dcCurr => some (true, 16) | .puFlags => some (false, 16)
  | .bmsInFlags => some (false, 8) | .bmsOutFlags => some (false, 8) | .bmsCellCount => some (false, 16)
  | .bmsChgState => some (false, 8) | .bmsChgDuration => some (false, 16) | .bmsLastErr => some (false, 8)
  | .bmsProtFlags => some (false, 32) | .bmsRedFlags => some (false, 8) | .bmsBattStatus => some (false, 8)
  | .modTMin => some (true, 16) | .modTMax => some (true, 16) | .modTAvg => some (true, 16)
  | .cellTMin => some (true, 16) | .cellTMax => some (true, 16) | .cellTAvg => some (true, 16)
  | .packCurr => some (true, 16) | .packCharge => some (false, 16) | .soc => some (false, 16)
  | .groundSpeed => none

/-- The bytes column of R16, the width MemRead and MemWrite name (R11). -/
def fieldBytes (f : Field) : Option Nat := (fieldType f).map (fun t => t.2 / 8)

/-- The values of a type (R10); 0 is a value of each. -/
def typeHolds (t : ValueType) (v : Int) : Bool :=
  match t with
  | .u n => decide (0 ≤ v) && decide (v < 2 ^ n)
  | .s n => decide (-(2 ^ n : Int) ≤ 2 * v) && decide (2 * v < 2 ^ n)
  | .int => true

/-- A value fits a field's type exactly (R10, R82); what `GROUND_SPEED` may hold is `typeHolds` of its parameter. -/
def fieldFits (f : Field) (v : Int) : Bool :=
  match fieldType f with
  | none => true
  | some (true, n) => decide (-(2 ^ (n - 1) : Int) ≤ v) && decide (v < 2 ^ (n - 1))
  | some (false, n) => decide (0 ≤ v) && decide (v < 2 ^ n)

/-- `REC[f]` (R47): the whole field, read as its type says. -/
def Rec.get (r : Rec) : Field → Int
  | .motorTemp => r.motorTemp.toInt
  | .invTemp => r.invTemp.toInt
  | .motorRpm => r.motorRpm.toInt
  | .dcVolt => r.dcVolt.toNat
  | .dcCurr => r.dcCurr.toInt
  | .puFlags => r.puFlags.toNat
  | .bmsInFlags => r.bmsInFlags.toNat
  | .bmsOutFlags => r.bmsOutFlags.toNat
  | .bmsCellCount => r.bmsCellCount.toNat
  | .bmsChgState => r.bmsChgState.toNat
  | .bmsChgDuration => r.bmsChgDuration.toNat
  | .bmsLastErr => r.bmsLastErr.toNat
  | .bmsProtFlags => r.bmsProtFlags.toNat
  | .bmsRedFlags => r.bmsRedFlags.toNat
  | .bmsBattStatus => r.bmsBattStatus.toNat
  | .modTMin => r.modTMin.toInt
  | .modTMax => r.modTMax.toInt
  | .modTAvg => r.modTAvg.toInt
  | .cellTMin => r.cellTMin.toInt
  | .cellTMax => r.cellTMax.toInt
  | .cellTAvg => r.cellTAvg.toInt
  | .packCurr => r.packCurr.toInt
  | .packCharge => r.packCharge.toNat
  | .soc => r.soc.toNat
  | .groundSpeed => r.groundSpeed

/-- `REC[f] <- v` (R47): the whole field at once, every other field kept (R44, R83). -/
def Rec.set (r : Rec) (f : Field) (v : Int) : Rec :=
  match f with
  | .motorTemp => { r with motorTemp := BitVec.ofInt 16 v }
  | .invTemp => { r with invTemp := BitVec.ofInt 16 v }
  | .motorRpm => { r with motorRpm := BitVec.ofInt 16 v }
  | .dcVolt => { r with dcVolt := BitVec.ofInt 16 v }
  | .dcCurr => { r with dcCurr := BitVec.ofInt 16 v }
  | .puFlags => { r with puFlags := BitVec.ofInt 16 v }
  | .bmsInFlags => { r with bmsInFlags := BitVec.ofInt 8 v }
  | .bmsOutFlags => { r with bmsOutFlags := BitVec.ofInt 8 v }
  | .bmsCellCount => { r with bmsCellCount := BitVec.ofInt 16 v }
  | .bmsChgState => { r with bmsChgState := BitVec.ofInt 8 v }
  | .bmsChgDuration => { r with bmsChgDuration := BitVec.ofInt 16 v }
  | .bmsLastErr => { r with bmsLastErr := BitVec.ofInt 8 v }
  | .bmsProtFlags => { r with bmsProtFlags := BitVec.ofInt 32 v }
  | .bmsRedFlags => { r with bmsRedFlags := BitVec.ofInt 8 v }
  | .bmsBattStatus => { r with bmsBattStatus := BitVec.ofInt 8 v }
  | .modTMin => { r with modTMin := BitVec.ofInt 16 v }
  | .modTMax => { r with modTMax := BitVec.ofInt 16 v }
  | .modTAvg => { r with modTAvg := BitVec.ofInt 16 v }
  | .cellTMin => { r with cellTMin := BitVec.ofInt 16 v }
  | .cellTMax => { r with cellTMax := BitVec.ofInt 16 v }
  | .cellTAvg => { r with cellTAvg := BitVec.ofInt 16 v }
  | .packCurr => { r with packCurr := BitVec.ofInt 16 v }
  | .packCharge => { r with packCharge := BitVec.ofInt 16 v }
  | .soc => { r with soc := BitVec.ofInt 16 v }
  | .groundSpeed => { r with groundSpeed := v }

end Sys2Proof.Machine
end

