-- ==== Sys2Proof/Machine/Operands.lean ====
section
/-! DEFINITION. Operand assembly: the payload reads `D[i]`, `le16` and `be16` of R11, and the extractors of R70. -/

namespace Sys2Proof.Machine

/-- `D[i]` (R11); the payload has the indices 0..7 only. -/
def payloadByte (d : Payload) : Nat → Option Byte
  | 0 => some d.d0
  | 1 => some d.d1
  | 2 => some d.d2
  | 3 => some d.d3
  | 4 => some d.d4
  | 5 => some d.d5
  | 6 => some d.d6
  | 7 => some d.d7
  | _ => none

/-- The eight data bytes in index order. -/
def payloadBytes (d : Payload) : List Byte := [d.d0, d.d1, d.d2, d.d3, d.d4, d.d5, d.d6, d.d7]

/-- `le16(a, b)` of the bytes `D[a]`, `D[b]` (R11): the first is the low byte. -/
def le16 (lo hi : Byte) : BitVec 16 := hi ++ lo

/-- `be16(a, b)` of the bytes `D[a]`, `D[b]` (R11): the first is the high byte. -/
def be16 (hi lo : Byte) : BitVec 16 := hi ++ lo

/-- `zext` of a byte, as the number it is (R10). -/
def zext (b : Byte) : Int := b.toNat

/-- `sext_16`: the two's-complement number of a 16-bit value (R10). -/
def sext16 (v : BitVec 16) : Int := v.toInt

/-- `raw` of R70: the sum of `D[offs[i]] * 2^(8*(n-1-i))`, or `none` if an index is outside 0..7. -/
def rawValue (d : Payload) : List Nat → Option Nat
  | [] => some 0
  | o :: os =>
    match payloadByte d o, rawValue d os with
    | some b, some r => some (b.toNat * 2 ^ (8 * os.length) + r)
    | _, _ => none

/-- `sext(raw)` as a signed number of `bits` bits (R70, R10). -/
def sextRaw (bits raw : Nat) : Int :=
  if 2 ^ bits ≤ 2 * raw then (raw : Int) - 2 ^ bits else raw

/-- An extractor `(dst, offs, sgn, bias)` (R70). -/
structure Extractor where
  dst : Field
  offs : List Nat
  sgn : Bool
  bias : Int
  deriving DecidableEq, Repr, Inhabited

/-- `extract(X)` (R70). -/
def extract (x : Extractor) (d : Payload) : Option Int :=
  match rawValue d x.offs with
  | none => none
  | some raw => some ((if x.sgn then sextRaw (8 * x.offs.length) raw else (raw : Int)) - x.bias)

/-- The `(field, value)` pairs of a rule's extractors, in order (40_dispatcher.md, template). -/
def extractAll (d : Payload) : List Extractor → Option (List (Field × Int))
  | [] => some []
  | x :: xs =>
    match extract x d, extractAll d xs with
    | some v, some w => some ((x.dst, v) :: w)
    | _, _ => none

/-- The extractors of `DR_MOTOR` (R71). -/
def motorExtractors : List Extractor :=
  [ ⟨.motorTemp, [0], false, 40⟩, ⟨.invTemp, [1], false, 40⟩, ⟨.motorRpm, [3, 2], true, 0⟩,
    ⟨.dcVolt, [5, 4], false, 0⟩, ⟨.dcCurr, [7, 6], true, 0⟩ ]

/-- The extractor of `DR_PUFLAGS` (R71). -/
def puflagsExtractors : List Extractor := [⟨.puFlags, [1, 0], false, 0⟩]

/-- The extractors of `DR_BMS0` (R72). -/
def bms0Extractors (p : Params) : List Extractor :=
  [ ⟨.bmsInFlags, p.layout.inFlags, false, 0⟩, ⟨.bmsOutFlags, p.layout.outFlags, false, 0⟩,
    ⟨.bmsCellCount, p.layout.cellCount, false, 0⟩, ⟨.bmsChgState, p.layout.chgState, false, 0⟩,
    ⟨.bmsChgDuration, p.layout.chgDuration, false, 0⟩, ⟨.bmsLastErr, p.layout.lastErr, false, 0⟩ ]

/-- The extractors of `DR_BMS2` (R72). -/
def bms2Extractors (p : Params) : List Extractor :=
  [ ⟨.modTMin, p.layout.modTMin, false, p.bmsTempBias⟩, ⟨.modTMax, p.layout.modTMax, false, p.bmsTempBias⟩,
    ⟨.modTAvg, p.layout.modTAvg, false, p.bmsTempBias⟩ ]

/-- The extractors of `DR_BMS7` (R72). -/
def bms7Extractors (p : Params) : List Extractor :=
  [ ⟨.bmsProtFlags, p.layout.protFlags, false, 0⟩, ⟨.bmsRedFlags, p.layout.redFlags, false, 0⟩,
    ⟨.bmsBattStatus, p.layout.battStatus, false, 0⟩ ]

/-- The extractors of `DR_BMS8` (R72). -/
def bms8Extractors (p : Params) : List Extractor :=
  [ ⟨.cellTMin, p.layout.cellTMin, false, p.bmsTempBias⟩, ⟨.cellTMax, p.layout.cellTMax, false, p.bmsTempBias⟩,
    ⟨.cellTAvg, p.layout.cellTAvg, false, p.bmsTempBias⟩ ]

/-- The extractors of `DR_BMS500` (R72). -/
def bms500Extractors (p : Params) : List Extractor :=
  [ ⟨.packCurr, p.layout.packCurr, true, 0⟩, ⟨.packCharge, p.layout.packCharge, false, 0⟩,
    ⟨.soc, p.layout.soc, false, 0⟩ ]

/-- The sentinel test of `DR_MOTOR` (R85): a 0xFF byte anywhere in `D[0..7]`, whatever `DLC` is (R61). -/
def hasSentinel (d : Payload) : Bool := (payloadBytes d).any (fun b => b == Config.sentinel)

end Sys2Proof.Machine
end

