-- ==== Sys2Proof/Machine/Ops.lean ====
section
/-! DEFINITION. The shared operations of the meanings: appending events, a slot's update, the callbacks, and entering
dispatch. The block takes no trap (R131) and has no return from one (R141); what stands in for trap entry is the
callback, taken by ONE operation here (R140). It has no byte-addressed memory (R42): its only stores are whole
record fields. -/

namespace Sys2Proof.Machine

/-- The outcome of a step or a meaning. -/
abbrev Result := Host.Outcome State Fault Refusal

/-- `emit` (R11, R39): the events are appended in order (R135). -/
def State.emit (s : State) (es : List Event) : State := { s with evh := s.evh ++ es }

/-- `TMR[k] <- t`. -/
def State.setTimer (s : State) (k : Nat) (t : Timer) : State := { s with tmr := s.tmr.set k t }

/-- `ACTIVITY_STARTED()` (R107). -/
def State.activityStarted (s : State) : State :=
  { s with
    mode := .ready
    autoUpdate := true
    evh := s.evh ++ [.activityStarted, .modeSet .ready, .autoUpdate true, .gaugeStandby false] }

/-- The events of `ACTIVITY_STOPPED()` (R108). -/
def stoppedEvents (rest : Bool) : List Event :=
  [.activityStopped, .modeSet .idle, .autoUpdate false, .gaugeStandby true] ++ (if rest then [.gaugeRest] else [])

/-- `ACTIVITY_STOPPED()` (R108). -/
def State.activityStopped (s : State) : State :=
  { s with
    mode := .idle
    autoUpdate := false
    evh := s.evh ++ stoppedEvents s.cfg.gaugeRestOnStop }

/-- `CALLBACK(k)` (R106): the action `TMR[k].CB` names. The effect of `CB_EXT(n)` beyond its event is outside the
block (R25). It is the block's analogue of trap entry: nothing is saved, no mode changes (R140). -/
def State.callback (s : State) (k : BitVec 8) (cb : BitVec 4) : State :=
  if cb = Config.cbActivityStopped then s.activityStopped
  else if cb = Config.cbNone then s.emit [.timerExpired k 0#4]
  else s.emit [.timerExpired k cb]

/-- What a decode rule answers (R80): its outcome and its write set, or the fault of a rule the layout makes
meaningless. -/
abbrev RuleResult := Except Fault (DispOutcome × List (Field × Int))

/-- A rule that writes what its extractors give (R70, R87). -/
def writtenBy (d : Payload) (xs : List Extractor) : RuleResult :=
  match extractAll d xs with
  | some w => .ok (.written, w)
  | none => .error .payloadIndex

/-- The echo of a frame entering dispatch, if the monitor passes it (R121). -/
def State.echoEvents (s : State) (f : Frame) (r : Rule) (o : DispOutcome) : List Event :=
  if s.monitorPasses f then [.echo f r o] else []

/-- The state after a receive that delivered `f` and entered dispatch with outcome `o` and write set `w` (R120, R121). -/
def State.enterDispatch (s : State) (f : Frame) (r : Rule) (o : DispOutcome) (w : List (Field × Int)) : State :=
  { s with
    frm := f
    evh := s.evh ++ s.echoEvents f r o
    pend := w
    sync := .dispatch }

/-- The receive that delivers a frame and enters its dispatch (R120, R121), given the rule's answer (R80). A value
that does not fit its field is a fault (R82). -/
def receiveFrame (r : Rule) (f : Frame) (result : RuleResult) (s : State) : Result :=
  match result with
  | .error e => .fault e
  | .ok (o, w) =>
    if w.all (fun x => fieldFits x.1 x.2) then .next (s.enterDispatch f r o w)
    else .fault .fieldRange

/-- A timer command on an existing slot; a slot `≥ NTIMERS` is reserved (R76). -/
def withSlot (k : BitVec 8) (s : State) (body : Timer → Result) : Result :=
  match s.tmr[k.toNat]? with
  | some t => body t
  | none => .refused (.badCommand .slot)

/-- A command of a slot's owner: never to `ACT_SLOT`, whose only producer is FAS (R24, R76). -/
def ownerCommand (k : BitVec 8) (s : State) (update : Timer → Timer) : Result :=
  withSlot k s (fun t =>
    if k.toNat = s.cfg.actSlot then .refused (.badCommand .issuer)
    else .next (s.setTimer k.toNat (update t)))

end Sys2Proof.Machine
end

