-- ==== Sys2Proof/Machine/Bms.lean ====
section
/-! DEFINITION. The five battery-management decode rules (R87 to R92): each writes what its extractors give from the
bytes `BMS_LAYOUT` names, with no sentinel test and no look at `DLC`. The identifier is `{BMS_PREFIX, sub-address}`. -/

namespace Sys2Proof.Machine

/-- `DR_BMS0(FRM)` (R88). -/
def bms0Rule (p : Params) (d : Payload) : RuleResult := writtenBy d (bms0Extractors p)

/-- `DR_BMS0` (R88). -/
def execDrBms0 (b : FrameBody) (s : State) : Result :=
  receiveFrame .bms0 (b.withId (familyKey s.cfg 0x0000#16)) (bms0Rule s.cfg b.data) s

/-- `DR_BMS2(FRM)` (R89). -/
def bms2Rule (p : Params) (d : Payload) : RuleResult := writtenBy d (bms2Extractors p)

/-- `DR_BMS2` (R89). -/
def execDrBms2 (b : FrameBody) (s : State) : Result :=
  receiveFrame .bms2 (b.withId (familyKey s.cfg 0x0002#16)) (bms2Rule s.cfg b.data) s

/-- `DR_BMS7(FRM)` (R90). -/
def bms7Rule (p : Params) (d : Payload) : RuleResult := writtenBy d (bms7Extractors p)

/-- `DR_BMS7` (R90). -/
def execDrBms7 (b : FrameBody) (s : State) : Result :=
  receiveFrame .bms7 (b.withId (familyKey s.cfg 0x0007#16)) (bms7Rule s.cfg b.data) s

/-- `DR_BMS8(FRM)` (R91). -/
def bms8Rule (p : Params) (d : Payload) : RuleResult := writtenBy d (bms8Extractors p)

/-- `DR_BMS8` (R91). -/
def execDrBms8 (b : FrameBody) (s : State) : Result :=
  receiveFrame .bms8 (b.withId (familyKey s.cfg 0x0008#16)) (bms8Rule s.cfg b.data) s

/-- `DR_BMS500(FRM)` (R92). -/
def bms500Rule (p : Params) (d : Payload) : RuleResult := writtenBy d (bms500Extractors p)

/-- `DR_BMS500` (R92). -/
def execDrBms500 (b : FrameBody) (s : State) : Result :=
  receiveFrame .bms500 (b.withId (familyKey s.cfg 0x0500#16)) (bms500Rule s.cfg b.data) s

end Sys2Proof.Machine
end

