-- ==== Sys2Proof/Machine/Timers.lean ====
section
/-! DEFINITION. The timer commands (R99 to R104), each as its rightful issuer gives it (R75); the command port's
decoding of the word and its issuer check are decodeCommand's. -/

namespace Sys2Proof.Machine

/-- `START k` (R100). -/
def execStart (k : BitVec 8) (s : State) : Result :=
  ownerCommand k s (fun t => { t with running := true, lastReset := s.now })

/-- `STOP k` (R101): `LAST_RESET` is kept and no callback fires. -/
def execStop (k : BitVec 8) (s : State) : Result :=
  ownerCommand k s (fun t => { t with running := false })

/-- `RESET k` (R102): `RUNNING` is kept. -/
def execReset (k : BitVec 8) (s : State) : Result :=
  ownerCommand k s (fun t => { t with lastReset := s.now })

/-- `KICK k` (R103): the test and the start or reset are one step (R54); only `ACT_SLOT` is kicked (R76). -/
def execKick (k : BitVec 8) (s : State) : Result :=
  withSlot k s (fun t =>
    if k.toNat ≠ s.cfg.actSlot then .refused (.badCommand .slot)
    else if t.running then .next (s.setTimer k.toNat { t with lastReset := s.now })
    else .next (s.setTimer k.toNat { t with running := true, lastReset := s.now }).activityStarted)

/-- A slot after its expiry (R104): re-armed from the `NOW` of the check, or disarmed. -/
def afterExpiry (now : BitVec 32) (t : Timer) : Timer :=
  if t.repeats then { t with lastReset := now } else { t with running := false }

/-- `CHECK k` (R104): an expired slot's callback, then its re-arm or disarm, in one step (R54). -/
def execCheck (k : BitVec 8) (s : State) : Result :=
  withSlot k s (fun t =>
    if expired s.now t then .next ((s.callback k t.cb).setTimer k.toNat (afterExpiry s.now t))
    else .next s)

end Sys2Proof.Machine
end

