-- ==== Sys2Proof/Machine/Vehicle.lean ====
section
/-! DEFINITION. The vehicle-controller decode rules (R85, R86) and the default rule (R93). A decode rule's meaning is
the receive of its frame: `FRM` is loaded, the rule's write set goes to `PEND`, the echo is emitted if the monitor
passes the frame, and `sync_state` is `S_DISPATCH` (R80, R120, R121). The writes themselves, one field a step in any
order, are FAS's steps of R122, in Machine/Agents.lean. -/

namespace Sys2Proof.Machine

/-- The write set of `DR_MOTOR` (R85). -/
def motorWrites (d : Payload) : List (Field × Int) :=
  [ (.motorTemp, zext d.d0 - Config.motorTempBias),
    (.invTemp, zext d.d1 - Config.motorTempBias),
    (.motorRpm, sext16 (le16 d.d2 d.d3)),
    (.dcVolt, ((le16 d.d4 d.d5).toNat : Int)),
    (.dcCurr, sext16 (le16 d.d6 d.d7)) ]

/-- `DR_MOTOR(FRM)` (R85): one sentinel byte discards the frame. -/
def motorRule (d : Payload) : RuleResult :=
  if hasSentinel d then .ok (.discarded, []) else .ok (.written, motorWrites d)

/-- `DR_MOTOR` (R85). -/
def execDrMotor (b : FrameBody) (s : State) : Result :=
  receiveFrame .motor (b.withId Config.motorId) (motorRule b.data) s

/-- `DR_PUFLAGS(FRM)` (R86): no sentinel test. -/
def puflagsRule (d : Payload) : RuleResult :=
  .ok (.written, [(.puFlags, ((le16 d.d0 d.d1).toNat : Int))])

/-- `DR_PUFLAGS` (R86). The kick is FAS's later step (R124). -/
def execDrPuflags (b : FrameBody) (s : State) : Result :=
  receiveFrame .puflags (b.withId Config.beaconId) (puflagsRule b.data) s

/-- `DR_IGNORE` (R93): no field updates, no error. -/
def execDrIgnore (id : BitVec 32) (b : FrameBody) (s : State) : Result :=
  receiveFrame .ignore (b.withId id) (.ok (.ignored, [])) s

end Sys2Proof.Machine
end

