-- ==== Sys2Proof/Machine/Dispatch.lean ====
section
/-! DEFINITION. One arm per instruction. -/

namespace Sys2Proof.Machine

def exec (i : Instr) (s : State) : Host.Outcome State Fault Refusal :=
  match i with
  | .drMotor b => Sys2Proof.Machine.execDrMotor b s
  | .drPuflags b => Sys2Proof.Machine.execDrPuflags b s
  | .drBms0 b => Sys2Proof.Machine.execDrBms0 b s
  | .drBms2 b => Sys2Proof.Machine.execDrBms2 b s
  | .drBms7 b => Sys2Proof.Machine.execDrBms7 b s
  | .drBms8 b => Sys2Proof.Machine.execDrBms8 b s
  | .drBms500 b => Sys2Proof.Machine.execDrBms500 b s
  | .drIgnore id b => Sys2Proof.Machine.execDrIgnore id b s
  | .start k => Sys2Proof.Machine.execStart k s
  | .stop k => Sys2Proof.Machine.execStop k s
  | .reset k => Sys2Proof.Machine.execReset k s
  | .kick k => Sys2Proof.Machine.execKick k s
  | .check k => Sys2Proof.Machine.execCheck k s

end Sys2Proof.Machine
end

