-- ==== Sys2Proof/Machine/Registers.lean ====
section
/-! DEFINITION. The reader port (R45) and the host port: the control and status index space (R34 to R36), the sink
variables and `GROUND_SPEED`, whose writers are outside the block (R19, R38). -/

namespace Sys2Proof.Machine

/-- `WAKE_STATUS` (R34): `WAKE_CNT` in 32 bits. `WAKE_MAX` has no upper bound (R7), and what the register shows for a
count that does not fit is a free value (log entry 12). -/
def wakeStatus (n : Nat) : BitVec 32 := if n < 2 ^ 32 then BitVec.ofNat 32 n else Config.wideWakeStatus n

/-- `TMR_CTRL[k]` (R34): `RUNNING` in bit 0, `REPEAT` in bit 1, `CB` in bits [7:4], the rest reserved. -/
def timerCtrl (t : Timer) : BitVec 32 :=
  0#24 ++ t.cb ++ 0#2 ++ BitVec.ofBool t.repeats ++ BitVec.ofBool t.running

/-- The registers of one slot (R34): its control word, timeout and last reset; the fourth is reserved. -/
def timerReg (t : Timer) : Nat → BitVec 32
  | 0 => timerCtrl t
  | 1 => t.timeout
  | 2 => t.lastReset
  | _ => 0#32

/-- What a host read of an index gives (R34); reserved indices and bits read 0. R34's map has no index for `PEND`
(log entry 22). -/
def State.readReg (s : State) (idx : Nat) : BitVec 32 :=
  if idx = 0x000 then 0#30 ++ BitVec.ofBool s.monFilterEn ++ BitVec.ofBool s.monEn
  else if idx = 0x001 then s.monId.setWidth 32
  else if idx = 0x002 then 0#31 ++ BitVec.ofBool s.isOn
  else if idx = 0x003 then wakeStatus s.wakeCnt
  else if idx = 0x004 then s.now
  else if idx = 0x005 then (syncCode s.sync).setWidth 32
  else if idx = 0x006 then s.schIdx.setWidth 32
  else if idx < 0x100 then 0#32
  else
    match s.tmr[(idx - 0x100) / 4]? with
    | some t => timerReg t ((idx - 0x100) % 4)
    | none => 0#32

/-- A host write (R34, R36): only `MON_CTRL` and `MON_ID`, and only with reserved bits clear. -/
def writeReg (idx : Nat) (v : BitVec 32) (s : State) : Result :=
  if idx = 0x000 then
    if v.extractLsb' 2 30 = 0#30 then
      .next { s with monEn := v.getLsbD 0, monFilterEn := v.getLsbD 1 }
    else .refused .badRegWrite
  else if idx = 0x001 then
    if v.extractLsb' 29 3 = 0#3 then .next { s with monId := v.extractLsb' 0 29 }
    else .refused .badRegWrite
  else .refused .badRegWrite

/-- A host read: no side effect on the block (R49); the answer goes to the port. -/
def regRead (idx : Nat) (s : State) : Result := .next { s with reply := some (.value ((s.readReg idx).toNat : Int)) }

/-- A host read of `PEND` (R40): the pending writes themselves, since R34 gives them no index and no bits; no side
effect on the block (log entry 22). -/
def pendRead (s : State) : Result := .next { s with reply := some (.pending s.pend) }

/-- `READ(f)` (R45): no side effect on the block; the answer goes to the port. -/
def readField (f : Nat) (s : State) : Result :=
  match fieldOfIdx f with
  | some fld => .next { s with reply := some (.value (s.record.get fld)) }
  | none => .refused .badField

/-- A host write of `MODE` (R38). -/
def setMode (m : Mode) (s : State) : Result := .next { s with mode := m }

/-- A host write of `AUTO_UPDATE` (R38). -/
def setAutoUpdate (b : Bool) (s : State) : Result := .next { s with autoUpdate := b }

/-- The speed module's write of `GROUND_SPEED` (R19). -/
def setGroundSpeed (v : Int) (s : State) : Result := .next { s with record := s.record.set .groundSpeed v }

end Sys2Proof.Machine
end

