-- ==== Sys2Proof/Machine/Startup.lean ====
section
/-! DEFINITION. Reset, startup and restart (R149 to R153) and the configuration checks of R8 and R73. -/

namespace Sys2Proof.Machine

/-- The lists of a layout with the length R72 gives each. -/
def layoutLists (l : Layout) (v : SocVariant) : List (List Nat × Nat) :=
  [ (l.inFlags, 1), (l.outFlags, 1), (l.cellCount, 2), (l.chgState, 1), (l.chgDuration, 2), (l.lastErr, 1),
    (l.modTMin, 1), (l.modTMax, 1), (l.modTAvg, 1),
    (l.protFlags, 4), (l.redFlags, 1), (l.battStatus, 1),
    (l.cellTMin, 1), (l.cellTMax, 1), (l.cellTAvg, 1),
    (l.packCurr, 2), (l.packCharge, 2), (l.soc, match v with | .soc1bPct => 1 | .soc2bCpct => 2) ]

/-- One list of a layout is well formed (R73): its length, its indices in 0..7, and no index twice. -/
def layoutListOk (x : List Nat × Nat) : Bool :=
  x.1.length == x.2 && x.1.all (fun o => o < 8) && decide x.1.Nodup

/-- `BMS_LAYOUT` is well formed (R73; R8 item 5). -/
def layoutOk (l : Layout) (v : SocVariant) : Bool := (layoutLists l v).all layoutListOk

/-- R8 item 1. That the registry's table has one entry a slot is part of it (log entry 6). -/
def registryOk (p : Params) : Bool :=
  decide (1 ≤ p.nTimers) && decide (p.nTimers ≤ 256) && decide (p.actSlot < p.nTimers) &&
    p.tmrInit.length == p.nTimers

/-- R8 item 2: no timeout is zero. -/
def timeoutsOk (p : Params) : Bool := p.tmrInit.all (fun t => t.timeout != 0#32)

/-- R8 item 3: the Activity Watchdog's slot. -/
def actSlotOk (p : Params) : Bool :=
  p.tmrInit[p.actSlot]? ==
    some { timeout := p.actTimeout, repeats := false, cb := Config.cbActivityStopped }

/-- R8 item 4: no other slot has its callback. -/
def callbacksOk (p : Params) : Bool :=
  (List.range p.nTimers).all fun k =>
    k == p.actSlot || (match p.tmrInit[k]? with | some t => t.cb != Config.cbActivityStopped | none => true)

/-- R8 item 6. -/
def boundsOk (p : Params) : Bool :=
  (p.bmsTempBias == 40 || p.bmsTempBias == 100) && decide (1 ≤ p.wakeMax)

/-- A well-formed configuration (R8, items 1 to 6). -/
def configOk (p : Params) : Bool :=
  registryOk p && timeoutsOk p && actSlotOk p && callbacksOk p && layoutOk p.layout p.socVariant && boundsOk p

/-- The state once a configuration has been taken (R149 step 2): the parameters fixed and every slot's cfg fields set. -/
def State.configured (s : State) (p : Params) : State :=
  { s with phase := .setup, cfg := p, tmr := p.tmrInit.map TimerInit.slot }

/-- R149 step 2: a configuration that fails a check is refused and has no run. -/
def takeConfig (p : Params) (s : State) : Result :=
  if configOk p then .next (s.configured p) else .refused .badConfig

/-- R149 steps 3 and 4 and R150: the Frame Source answers `configure`; a failure is a transport fault, logged, and the
run phase begins all the same. -/
def configureSource (ok : Bool) (s : State) : Result :=
  .next { s with phase := .run, evh := s.evh ++ (if ok then [] else [.transportFault]) }

/-- A restart (R153): reset with new draws; only what is not the block's, the steps still to come, is kept. -/
def restart (d : ResetDraws) (s : State) : Result :=
  .next { State.resetWith d with script := s.script, drawCnt := s.drawCnt }

end Sys2Proof.Machine
end

