-- ==== Sys2Proof/Machine/Agents.lean ====
section
/-! DEFINITION. The atomic steps of the agents (R6): the time base, the Frame Source's interrupt, FAS (R118 to R124),
the scheduler (R105), the command port (R76), and when each is enabled. -/

namespace Sys2Proof.Machine

/-! ## The time base and the interrupt -/

/-- One tick (R26). -/
def tick (s : State) : Result := .next { s with now := s.now + 1#32 }

/-- `IRQ` (R118): a wake given at `WAKE_MAX` is lost. -/
def irq (s : State) : Result :=
  .next { s with wakeCnt := if s.wakeCnt < s.cfg.wakeMax then s.wakeCnt + 1 else s.wakeCnt }

/-! ## FAS -/

/-- `WAIT_TAKE` (R119). `FRM` stays as it is (log entry 23). -/
def waitTake (s : State) : Result := .next { s with wakeCnt := s.wakeCnt - 1, sync := .recv }

/-- `WAIT_TIMEOUT` and `WAIT_POLL` (R119). `FRM` stays as it is (log entry 23). -/
def waitOver (s : State) : Result := .next { s with sync := .recv }

/-- The refusal of an input the decoder gives no instruction (R60, R76). -/
def decodeRefusal : DecodeError → Refusal
  | .badFrame => .badFrame
  | .badCommand why => .badCommand why
  | .badLength => .badFrame

/-- `RECV(a)` (R120). A frame is decoded and its rule's instruction is executed; `NONE` and `ERROR`
leave `FRM` as it is (log entry 23). -/
def recv (a : Answer) (s : State) : Result :=
  match a with
  | .frame f =>
    match decodeFrame s.cfg f with
    | .ok i => exec i s
    | .error e => .refused (decodeRefusal e)
  | .none => .next { s with sync := .wait }
  | .error => .next { s.emit [.transportFault] with sync := .wait }

/-- `WRITE((f, v))` (R122). -/
def writeField (f : Field) (v : Int) (s : State) : Result :=
  .next { s with record := s.record.set f v, pend := s.pend.erase (f, v) }

/-- `END_DISPATCH` (R123). -/
def endDispatch (s : State) : Result := .next { s with sync := .kick }

/-- A word on the timer engine's command port (R74 to R76): decoded with its issuer, then executed. -/
def issue (by_ : Issuer) (w : BitVec 16) (s : State) : Result :=
  match decodeCommand s.cfg by_ w with
  | .ok i => exec i s
  | .error e => .refused (decodeRefusal e)

/-- What follows an agent's command in the agent's own step. -/
def andThen (r : Result) (k : State → State) : Result :=
  match r with
  | .next s => .next (k s)
  | .fault e => .fault e
  | .refused e => .refused e

/-- FAS's kick step with a command word, back to `S_WAIT` (R124). -/
def fasCommand (w : BitVec 16) (s : State) : Result :=
  andThen (issue .fas w s) (fun t => { t with sync := .wait })

/-- `BEACON_CHECK` (R124): a beacon gives KICK `ACT_SLOT` in the same step, any other frame no command.
Back in `S_WAIT` the frame is not cleared from `FRM` (DESIGN CHOICE, log entry 23). -/
def beaconCheck (s : State) : Result :=
  if isBeacon s.cfg s.frm then fasCommand (kickWord s.cfg) s else .next { s with sync := .wait }

/-! ## The scheduler -/

/-- `SCH_IDX <- (SCH_IDX + 1) mod NTIMERS` (R105). -/
def State.advance (s : State) : State :=
  { s with schIdx := BitVec.ofNat 8 ((s.schIdx.toNat + 1) % s.cfg.nTimers) }

/-- The scheduler's step with a command word (R105). A check of another slot than the next is none of its steps. -/
def schedCommand (w : BitVec 16) (s : State) : Result :=
  match decodeCommand s.cfg .scheduler w with
  | .ok i => if w = checkWord s.schIdx then andThen (exec i s) State.advance else .refused .notEnabled
  | .error e => .refused (decodeRefusal e)

/-- The scheduler's step (R105): CHECK `SCH_IDX`, then the next slot. -/
def schedCheck (s : State) : Result := schedCommand (checkWord s.schIdx) s

/-- A command word from an agent. -/
def command (by_ : Issuer) (w : BitVec 16) (s : State) : Result :=
  match by_ with
  | .host => issue .host w s
  | .fas => fasCommand w s
  | .scheduler => schedCommand w s

/-! ## Which steps are enabled, and what each does -/

/-- When a step is enabled: the boot order (R149: startup steps in order, nothing else before the run phase; R153: a
restart at any step) and the requires lines of R119 to R124. FAS puts a word on the command port only in its kick
step, on a beacon, and the speed module writes only values of `GROUND_SPEED_T` (R7, R19). -/
def enabled (a : Act) (s : State) : Bool :=
  match a with
  | .tick => s.phase == .run
  | .irq => s.phase == .run
  | .waitTake => s.phase == .run && s.sync == .wait && s.cfg.rxMode == .irq && decide (0 < s.wakeCnt)
  | .waitTimeout => s.phase == .run && s.sync == .wait && s.cfg.rxMode == .irq
  | .waitPoll => s.phase == .run && s.sync == .wait && s.cfg.rxMode == .poll
  | .recv _ => s.phase == .run && s.sync == .recv
  | .write f v => s.phase == .run && s.sync == .dispatch && s.pend.contains (f, v)
  | .endDispatch => s.phase == .run && s.sync == .dispatch && s.pend.isEmpty
  | .beaconCheck => s.phase == .run && s.sync == .kick
  | .schedCheck => s.phase == .run
  | .command .host _ => s.phase == .run
  | .command .fas _ => s.phase == .run && s.sync == .kick && isBeacon s.cfg s.frm
  | .command .scheduler _ => s.phase == .run
  | .read _ => s.phase == .run
  | .regRead _ => s.phase == .run
  | .pendRead => s.phase == .run
  | .regWrite _ _ => s.phase == .run
  | .setMode _ => s.phase == .run
  | .setAutoUpdate _ => s.phase == .run
  | .setGroundSpeed v => s.phase == .run && typeHolds s.cfg.groundSpeedT v
  | .takeConfig _ => s.phase == .config
  | .configure _ => s.phase == .setup
  | .restart _ => true

/-- What an enabled step does. -/
def perform (a : Act) (s : State) : Result :=
  match a with
  | .tick => tick s
  | .irq => irq s
  | .waitTake => waitTake s
  | .waitTimeout => waitOver s
  | .waitPoll => waitOver s
  | .recv ans => recv ans s
  | .write f v => writeField f v s
  | .endDispatch => endDispatch s
  | .beaconCheck => beaconCheck s
  | .schedCheck => schedCheck s
  | .command by_ w => command by_ w s
  | .read f => readField f s
  | .regRead idx => regRead idx s
  | .pendRead => pendRead s
  | .regWrite idx v => writeReg idx v s
  | .setMode m => setMode m s
  | .setAutoUpdate b => setAutoUpdate b s
  | .setGroundSpeed v => setGroundSpeed v s
  | .takeConfig p => takeConfig p s
  | .configure ok => configureSource ok s
  | .restart d => restart d s

/-- The refusal of a reserved command word, or of one from an issuer that may not give it (R76, R133), at every state
of the run phase: a word's meaning does not wait for the state in which its agent would give it. -/
def wordRefusal (a : Act) (s : State) : Option Refusal :=
  match a with
  | .command by_ w =>
    match s.phase, decodeCommand s.cfg by_ w with
    | .run, .error e => some (decodeRefusal e)
    | _, _ => none
  | _ => none

/-- What a step that is not enabled ends in: a refused word's own refusal, else `otherwise`. -/
def notTaken (a : Act) (s : State) (otherwise : Result) : Result :=
  match wordRefusal a s with
  | some r => .refused r
  | none => otherwise

/-- A scheduled step: one that is not enabled is no step of the block. -/
def takeAct (a : Act) (s : State) : Result :=
  if enabled a s then perform a s else notTaken a s (.refused .notEnabled)

/-- A freely chosen step: a choice that is not enabled is passed over, and only the count of choices moves on. -/
def takeDraw (a : Act) (s : State) : Result :=
  if enabled a s then perform a s else notTaken a s (.next s)

/-- One step of the whole block: the next scheduled step, or a free choice when none is scheduled (R6, log entry 1). -/
def stepOnce (s : State) : Result :=
  match s.script with
  | a :: rest => takeAct a { s with script := rest }
  | [] => takeDraw (Config.drawAct s.drawCnt) { s with drawCnt := s.drawCnt + 1 }

/-! ## Placing one instruction before the next step -/

/-- The frame FAS holds when a KICK word goes on the command port: a beacon with an empty payload. -/
def beaconFrame : Frame :=
  { id := Config.beaconId, ide := false, dlc := 0#4, data := ⟨0#8, 0#8, 0#8, 0#8, 0#8, 0#8, 0#8, 0#8⟩ }

/-- The run phase, entered under the table's configuration if no configuration has been taken yet (log entry 5). -/
def State.readied (s : State) (nbits w : Nat) : State :=
  match s.phase with
  | .run => s
  | .config => { s.configured (tableParams nbits w) with phase := .run }
  | .setup => { s.configured (tableParams nbits w) with phase := .run }

/-- The instruction in a byte image on a port, made the next step: a frame is received, a KICK word is FAS's kick step,
a CHECK word the scheduler's next check, any other word the host's. -/
def State.present (s : State) (port : Port) (bytes : List Byte) : State :=
  match port with
  | .frames =>
    match frameOfBytes bytes with
    | some f => { s with sync := .recv, pend := [], script := .recv (.frame f) :: s.script }
    | none => s
  | .commands by_ =>
    match commandOfBytes bytes with
    | none => s
    | some w =>
      match by_ with
      | .host => { s with script := .command .host w :: s.script }
      | .fas => { s with sync := .kick, pend := [], frm := beaconFrame, script := .command .fas w :: s.script }
      | .scheduler => { s with schIdx := cmdSlot w, script := .command .scheduler w :: s.script }

/-- The table word made the next step's instruction. -/
def placeWord (s : State) (nbits w : Nat) : State :=
  (s.readied nbits w).present (tableImage nbits w).1 (tableImage nbits w).2

end Sys2Proof.Machine
end

