-- ==== Sys2Proof/Machine/Step.lean ====
section
/-! DEFINITION. The step of the machine. What it calls stands in Machine/Agents.lean. -/

namespace Sys2Proof.Machine

/-- One atomic step of one agent (R6). -/
def step (s : State) : Host.Outcome State Fault Refusal := stepOnce s

/-- `s` with the instruction of a word, numbered as spec/opcode_table.json numbers it, made the very next step's. -/
def State.withFetchWord (s : State) (nbits w : Nat) : State := placeWord s nbits w

end Sys2Proof.Machine
end

