-- ==== Sys2Proof/Machine/Dispatcher.lean ====
section
/-! DEFINITION. `DISPATCH(FRM)` of R80 as a function of the frame and the configuration alone. The instructions'
meanings do not call it; the statements hold them against it. -/

namespace Sys2Proof.Machine

/-- A rule run on a frame (R85, R86, R88 to R93). -/
def runRule (p : Params) (d : Payload) : Rule → RuleResult
  | .ignore => .ok (.ignored, [])
  | .motor => motorRule d
  | .puflags => puflagsRule d
  | .bms0 => bms0Rule p d
  | .bms2 => bms2Rule p d
  | .bms7 => bms7Rule p d
  | .bms8 => bms8Rule p d
  | .bms500 => bms500Rule p d

/-- The answer of `DISPATCH(FRM)` (R80), with the rule `select` gives. -/
def dispatchOf (p : Params) (f : Frame) : RuleResult := runRule p f.data (select p f)

end Sys2Proof.Machine
end

