-- ==== Sys2Proof/Machine/Stimulus.lean ====
section
/-! DEFINITION. The stimulus notation of R77 and the pseudo-operations of R78, as the lists of agent steps they expand
to. A script is no state and no instruction: its lines only say which steps are scheduled. -/

namespace Sys2Proof.Machine

/-- One line of a script (R77, R78). A frame's eight bytes are all given; `byWake` says whether FAS leaves `S_WAIT` by
a wake or by its timeout (R78; in `RX_POLL` mode it polls). -/
inductive Line where
  | frame (f : Frame) (byWake : Bool)
  | irq
  | rxErr (byWake : Bool)
  | tick (n : Nat)
  | sweep
  | start (k : BitVec 8)
  | stop (k : BitVec 8)
  | reset (k : BitVec 8)
  | read (f : Nat)
  | mon (en filt : Bool) (id : BitVec 29)
  deriving DecidableEq, Repr, Inhabited

/-- `BEACON`: a standard frame 0x07 of length 2 that writes zero flags, with the bytes it does not list (R77, R78). -/
def Line.beacon (d2 d3 d4 d5 d6 d7 : Byte) (byWake : Bool) : Line :=
  .frame { id := Config.beaconId, ide := false, dlc := 2#4, data := ⟨0#8, 0#8, d2, d3, d4, d5, d6, d7⟩ } byWake

/-- `WAIT n` is `TICK n` (R78). -/
def Line.wait (n : Nat) : Line := .tick n

/-- The steps that bring FAS from `S_WAIT` to `S_RECV`. -/
def leaveWait (p : Params) (byWake : Bool) : List Act :=
  match p.rxMode with
  | .poll => [.waitPoll]
  | .irq => if byWake then [.irq, .waitTake] else [.waitTimeout]

/-- The writes a frame owes, in its rule's order, which is one of the orders R122 admits. -/
def frameWrites (p : Params) (f : Frame) : List (Field × Int) :=
  match dispatchOf p f with
  | .ok (_, w) => w
  | .error _ => []

/-- A sweep from slot 0: one check a slot (R77, R105). -/
def sweepActs (p : Params) : List Act := List.replicate p.nTimers .schedCheck

/-- The steps of a line (R77, R78). -/
def Line.acts (p : Params) : Line → List Act
  | .frame f byWake =>
    leaveWait p byWake ++ .recv (.frame f) ::
      ((frameWrites p f).map (fun x => Act.write x.1 x.2) ++ [.endDispatch, .beaconCheck])
  | .irq => [.irq]
  | .rxErr byWake => leaveWait p byWake ++ [.recv .error]
  | .tick n => List.replicate n .tick
  | .sweep => sweepActs p
  | .start k => [.command .host (0x10#8 ++ k)]
  | .stop k => [.command .host (0x20#8 ++ k)]
  | .reset k => [.command .host (0x30#8 ++ k)]
  | .read f => [.read f]
  | .mon en filt id =>
    [.regWrite 0x000 (0#30 ++ BitVec.ofBool filt ++ BitVec.ofBool en), .regWrite 0x001 (id.setWidth 32)]

/-- The steps of a script: its lines in order (R78). -/
def scriptActs (p : Params) (ls : List Line) : List Act := ls.flatMap (Line.acts p)

end Sys2Proof.Machine
end

