-- ==== Sys2Proof/Safety.lean ====
section
/-! DEFINITION. What counts as a safe state and a safe run of the block, in the terms the statements use: the
invariant every step keeps, the activity log of the event history, and the weak fairness R105 and R128 assume. -/

namespace Sys2Proof.Machine

/-! ## The activity log (R111) -/

/-- Reading one event of a history whose last activity event said On or Off; `none` once the alternation is broken. -/
def activityStep (last : Option Bool) (e : Event) : Option Bool :=
  match e with
  | .activityStarted => if last = some false then some true else none
  | .activityStopped => if last = some true then some false else none
  | _ => last

/-- What a history's activity events say: `some on` if they alternate and begin with STARTED, with `on` the state
after the last; `none` otherwise (R111). -/
def activityOf (h : List Event) : Option Bool := h.foldl activityStep (some false)

/-! ## The invariant -/

/-- The cfg fields of a slot (R21, R22). -/
def Timer.init (t : Timer) : TimerInit := { timeout := t.timeout, repeats := t.repeats, cb := t.cb }

/-- The invariant of the block. -/
structure State.Inv (s : State) : Prop where
  /-- The configuration passed the checks of R8. -/
  config : configOk s.cfg = true
  /-- Every slot's cfg fields are the configuration's (R22). -/
  slots : s.tmr.map Timer.init = s.cfg.tmrInit
  /-- `SCH_IDX` is in 0..NTIMERS-1 (R33). -/
  schIdx : s.schIdx.toNat < s.cfg.nTimers
  /-- `WAKE_CNT` is in 0..WAKE_MAX (R32). -/
  wake : s.wakeCnt ≤ s.cfg.wakeMax
  /-- `PEND` is empty outside `S_DISPATCH` (R31). -/
  pendEmpty : s.sync ≠ .dispatch → s.pend = []
  /-- In `S_DISPATCH`, `PEND` holds writes of the frame in `FRM` not yet performed (R31, R121). -/
  pendOf : s.sync = .dispatch → ∃ o w, dispatchOf s.cfg s.frm = .ok (o, w) ∧ s.pend.Sublist w
  /-- `FRM` holds a well-formed frame while it is dispatched (R30, R60). -/
  frame : s.sync = .dispatch ∨ s.sync = .kick → s.frm.wf = true
  /-- Before the run phase nothing has run (R149). -/
  boot : s.phase ≠ .run → s.sync = .wait ∧ s.evh = [] ∧ s.wakeCnt = 0 ∧ s.schIdx = 0#8 ∧ s.record = Rec.zero
  /-- STARTED and STOPPED alternate, and the last of them says what the Activity Watchdog is (R111, R28). -/
  activity : activityOf s.evh = some s.isOn
  /-- `GROUND_SPEED` holds a value of its configured type (R7, R19). -/
  groundSpeed : typeHolds s.cfg.groundSpeedT s.record.groundSpeed = true

/-! ## Runs and fairness -/

/-- An infinite run: every step is enabled and gives the next state (R6, R128). -/
def IsRun (tr : Nat → State) (acts : Nat → Act) : Prop :=
  ∀ n, enabled (acts n) (tr n) = true ∧ perform (acts n) (tr n) = .next (tr (n + 1))

/-- A step of the scheduler (R105). -/
def isSchedulerAct : Act → Bool
  | .schedCheck => true
  | .command .scheduler _ => true
  | _ => false

/-- A step that ends the run phase: a restart (R153). -/
def isRestart : Act → Bool
  | .restart _ => true
  | _ => false

/-- A step of FAS (R119 to R124). -/
def isFasAct : Act → Bool
  | .waitTake => true
  | .waitTimeout => true
  | .waitPoll => true
  | .recv _ => true
  | .write _ _ => true
  | .endDispatch => true
  | .beaconCheck => true
  | .command .fas _ => true
  | _ => false

/-- Weak fairness for the scheduler (R105, log entry 18): if its step stays enabled it is eventually taken. -/
def FairScheduler (tr : Nat → State) (acts : Nat → Act) : Prop :=
  ∀ n, (∀ m, n ≤ m → enabled .schedCheck (tr m) = true) → ∃ m, n ≤ m ∧ isSchedulerAct (acts m) = true

/-- Weak fairness for FAS (R128, log entry 18): if some step of FAS stays enabled, FAS eventually takes one. -/
def FairFas (tr : Nat → State) (acts : Nat → Act) : Prop :=
  ∀ n, (∀ m, n ≤ m → ∃ a, isFasAct a = true ∧ enabled a (tr m) = true) → ∃ m, n ≤ m ∧ isFasAct (acts m) = true

/-! ## The terms the statements use

Each is written apart from the meanings, from the rules' own words, so that a statement compares two texts. -/

/-- The number in payload byte `i` (R11). -/
def byteAt (d : Payload) (i : Nat) : Nat := ((payloadBytes d).getD i 0#8).toNat

/-- The number whose bytes, most significant first, are the payload bytes of a list (R70), by Horner's rule. -/
def beValue (d : Payload) (offs : List Nat) : Nat := offs.foldl (fun acc o => acc * 256 + byteAt d o) 0

/-- A 16-bit number read as two's complement (R10). -/
def signed16 (n : Nat) : Int := if n < 32768 then n else (n : Int) - 65536

/-- Some payload byte is the sentinel (R85). -/
def SentinelIn (d : Payload) : Prop := ∃ i, i ≤ 7 ∧ byteAt d i = 0xFF

/-- The echo the monitor owes a frame (R121). -/
def echoOf (s : State) (f : Frame) (r : Rule) (o : DispOutcome) : List Event :=
  if s.monEn = true ∧ (s.monFilterEn = false ∨ f.id.toNat = s.monId.toNat) then [.echo f r o] else []

/-- The state in which the frame `f` has entered dispatch with outcome `o` and write set `w`, every other piece of
state as in `s` (R120, R121). -/
def State.dispatching (s : State) (f : Frame) (r : Rule) (o : DispOutcome) (w : List (Field × Int)) : State :=
  { s with frm := f, evh := s.evh ++ echoOf s f r o, pend := w, sync := .dispatch }

/-- `REC` after the writes of a list, in order. -/
def applyWrites (r : Rec) (w : List (Field × Int)) : Rec := w.foldl (fun r x => r.set x.1 x.2) r

/-- The steps that perform the writes of a list, in order. -/
def writeActs (w : List (Field × Int)) : List Act := w.map (fun x => .write x.1 x.2)

/-- How many times a history says STOPPED. -/
def stoppedCount (h : List Event) : Nat := h.countP (fun e => e == .activityStopped)

/-- How many times a history says STARTED. -/
def startedCount (h : List Event) : Nat := h.countP (fun e => e == .activityStarted)

/-- One list of `BMS_LAYOUT` as R73 wants it. -/
def ListWellFormed (l : List Nat) (n : Nat) : Prop := l.length = n ∧ (∀ o ∈ l, o ≤ 7) ∧ l.Nodup

/-- `BMS_LAYOUT` as R73 wants it, with the lengths of R72. -/
def LayoutWellFormed (l : Layout) (v : SocVariant) : Prop :=
  ListWellFormed l.inFlags 1 ∧ ListWellFormed l.outFlags 1 ∧ ListWellFormed l.cellCount 2 ∧
  ListWellFormed l.chgState 1 ∧ ListWellFormed l.chgDuration 2 ∧ ListWellFormed l.lastErr 1 ∧
  ListWellFormed l.modTMin 1 ∧ ListWellFormed l.modTMax 1 ∧ ListWellFormed l.modTAvg 1 ∧
  ListWellFormed l.protFlags 4 ∧ ListWellFormed l.redFlags 1 ∧ ListWellFormed l.battStatus 1 ∧
  ListWellFormed l.cellTMin 1 ∧ ListWellFormed l.cellTMax 1 ∧ ListWellFormed l.cellTAvg 1 ∧
  ListWellFormed l.packCurr 2 ∧ ListWellFormed l.packCharge 2 ∧
  (v = .soc1bPct → ListWellFormed l.soc 1) ∧ (v = .soc2bCpct → ListWellFormed l.soc 2)

/-- A configuration as R8 wants it, for a registry table with one entry a slot. -/
def ConfigWellFormed (p : Params) : Prop :=
  (1 ≤ p.nTimers ∧ p.nTimers ≤ 256 ∧ p.actSlot < p.nTimers) ∧
  (∀ t ∈ p.tmrInit, 1 ≤ t.timeout.toNat) ∧
  (∃ t, p.tmrInit[p.actSlot]? = some t ∧ t.timeout = p.actTimeout ∧ t.repeats = false ∧ t.cb = 1#4) ∧
  (∀ k t, p.tmrInit[k]? = some t → k ≠ p.actSlot → t.cb ≠ 1#4) ∧
  LayoutWellFormed p.layout p.socVariant ∧
  (p.bmsTempBias = 40 ∨ p.bmsTempBias = 100) ∧ 1 ≤ p.wakeMax

/-- A command word R76 reserves, from an issuer. -/
def ReservedCommand (p : Params) (by_ : Issuer) (w : BitVec 16) : Prop :=
  let op := w.toNat / 4096
  let slot := w.toNat % 256
  (op = 0 ∨ 6 ≤ op) ∨ w.toNat / 256 % 16 ≠ 0 ∨ p.nTimers ≤ slot ∨
  (op = 4 ∧ (slot ≠ p.actSlot ∨ by_ ≠ .fas)) ∨ (op = 5 ∧ by_ ≠ .scheduler) ∨
  ((op = 1 ∨ op = 2 ∨ op = 3) ∧ by_ = .host ∧ slot = p.actSlot)

end Sys2Proof.Machine
end

