-- ==== Sys2Proof/Certificates/Slice0/Obligations.lean ====
section
/-! DEFINITION. The statements about the block, one Prop each. -/

open Sys2Proof Sys2Proof.Machine

/-! ## Encoding and selection -/

/-- A few words of the opcode table and the instructions they are (30_encoding.md sections 2 and 4). -/
def Obligations.TableWordsDecode : Prop :=
  decodeTableWord 32 0x00000006 = some (.drMotor ⟨false, 0#4, ⟨0#8, 0#8, 0#8, 0#8, 0#8, 0#8, 0#8, 0#8⟩⟩) ∧
  decodeTableWord 32 0x00000007 = some (.drPuflags ⟨false, 0#4, ⟨0#8, 0#8, 0#8, 0#8, 0#8, 0#8, 0#8, 0#8⟩⟩) ∧
  decodeTableWord 32 0x00000123 =
    some (.drIgnore 0x123#32 ⟨false, 0#4, ⟨0#8, 0#8, 0#8, 0#8, 0#8, 0#8, 0#8, 0#8⟩⟩) ∧
  decodeTableWord 16 0b0001000000000011 = some (.start 3#8) ∧
  decodeTableWord 16 0b0010000000000001 = some (.stop 1#8) ∧
  decodeTableWord 16 0b0011000000000001 = some (.reset 1#8) ∧
  decodeTableWord 16 0b0100000000000000 = some (.kick 0#8) ∧
  decodeTableWord 16 0b0101000000000010 = some (.check 2#8) ∧
  decodeTableWord 16 0x0001 = none ∧ decodeTableWord 16 0x6001 = none ∧ decodeTableWord 16 0x1101 = none

/-- Decoding the bytes of a well-formed instruction gives it back, with every operand, under every configuration. -/
def Obligations.DecodeEncodeRoundTrip : Prop :=
  ∀ (p : Params) (i : Instr), i.wf p = true → decode p i.port (encode p i) = .ok i

/-- What the decoder gives is well formed, and its bytes are the bytes decoded: no two frames and no two command
words give one instruction. -/
def Obligations.EncodeDecodeRoundTrip : Prop :=
  (∀ (p : Params) (f : Frame) (i : Instr), decodeFrame p f = .ok i →
    i.wf p = true ∧ i.port = .frames ∧ encode p i = frameBytes f ∧ frameOfBytes (encode p i) = some f) ∧
  (∀ (p : Params) (by_ : Issuer) (w : BitVec 16) (i : Instr), decodeCommand p by_ w = .ok i →
    i.wf p = true ∧ i.port = .commands by_ ∧ encode p i = commandBytes w ∧ commandOfBytes (encode p i) = some w)

/-- R65: the rule selected is that of the first entry, in priority order, whose mask and key take the identifier and
whose IDE column, when qualified, takes the format bit; there always is one. -/
def Obligations.SelectionIsFirstTakingEntry : Prop :=
  ∀ (p : Params) (f : Frame) (r : Rule),
    select p f = r ↔ ∃ before e after, lut p = before ++ e :: after ∧ e.rule = r ∧
      (f.id &&& e.mask = e.key ∧ (p.ideQualified = true → e.ideReq = none ∨ e.ideReq = some f.ide)) ∧
      ∀ e' ∈ before,
        ¬ (f.id &&& e'.mask = e'.key ∧ (p.ideQualified = true → e'.ideReq = none ∨ e'.ideReq = some f.ide))

/-- R66: the family test on the two halves of the identifier, the largest prefix a frame can match, the frames of
larger prefixes, and the prefix 0 with its priority. -/
def Obligations.FamilyNeedsPrefixAndSubAddress : Prop :=
  ∀ (p : Params) (f : Frame), f.wf = true →
    (∀ r sub, (r, sub) ∈ [(Rule.bms0, 0), (.bms2, 2), (.bms7, 7), (.bms8, 8), (.bms500, 0x500)] →
      select p f = r → f.id.toNat / 65536 = p.bmsPrefix.toNat ∧ f.id.toNat % 65536 = sub ∧
        p.bmsPrefix.toNat ≤ 0x1FFF) ∧
    (0x1FFF < p.bmsPrefix.toNat → select p f = .motor ∨ select p f = .puflags ∨ select p f = .ignore) ∧
    (p.bmsPrefix.toNat = 0 → p.ideQualified = false →
      (f.id.toNat = 7 → select p f = .puflags) ∧ (f.id.toNat = 0 → select p f = .bms0) ∧
      (f.id.toNat = 2 → select p f = .bms2) ∧ (f.id.toNat = 8 → select p f = .bms8) ∧
      (f.id.toNat = 0x500 → select p f = .bms500))

/-- R76: every reserved command word, from every issuer, is refused as BadCommand and has no effect. -/
def Obligations.ReservedCommandsRefused : Prop :=
  ∀ (s : State) (by_ : Issuer) (w : BitVec 16), ReservedCommand s.cfg by_ w →
    ∃ why, command by_ w s = .refused (.badCommand why)

/-- R139's order of reasons, on the command port: op, then rsv, then slot, then issuer. That START, STOP and RESET from
FAS or the scheduler are refused for their issuer is log entry 16 (DEDUCED from R75, R133 and R143; not in R76's list). -/
def Obligations.CommandReasonIsFirstInOrder : Prop :=
  ∀ (s : State) (by_ : Issuer) (w : BitVec 16),
    let op := w.toNat / 4096
    let rsv := w.toNat / 256 % 16
    let slot := w.toNat % 256
    ((op = 0 ∨ 6 ≤ op) → command by_ w s = .refused (.badCommand .op)) ∧
    (1 ≤ op → op ≤ 5 → rsv ≠ 0 → command by_ w s = .refused (.badCommand .rsv)) ∧
    (1 ≤ op → op ≤ 5 → rsv = 0 → (s.cfg.nTimers ≤ slot ∨ (op = 4 ∧ slot ≠ s.cfg.actSlot)) →
      command by_ w s = .refused (.badCommand .slot)) ∧
    (1 ≤ op → op ≤ 5 → rsv = 0 → slot < s.cfg.nTimers → (op = 4 → slot = s.cfg.actSlot) →
      (by_ ≠ (if op = 4 then .fas else if op = 5 then .scheduler else .host) ∨
        (op ≤ 3 ∧ slot = s.cfg.actSlot)) →
      command by_ w s = .refused (.badCommand .issuer))

/-! ## The decode rules -/

/-- R85: `DR_MOTOR` (code 1), decoded from identifier 6, always completes: a sentinel byte anywhere discards the frame
and leaves nothing to write, any other frame leaves the five writes pending; every other piece of state is kept.
That the instruction is the receive that loads `FRM`, echoes, fills `PEND` and enters `S_DISPATCH` is log entry 14
(DEDUCED from R80, R120 and R121). -/
def Obligations.MotorRuleResult : Prop :=
  Rule.motor.code.toNat = 1 ∧ ∀ (b : FrameBody) (s : State),
    ((b.withId 6#32).wf = true → (s.cfg.ideQualified = true → b.ide = false) →
      decodeFrame s.cfg (b.withId 6#32) = .ok (.drMotor b)) ∧
    (SentinelIn b.data →
      exec (.drMotor b) s = .next (s.dispatching (b.withId 6#32) .motor .discarded [])) ∧
    (¬ SentinelIn b.data →
      exec (.drMotor b) s = .next (s.dispatching (b.withId 6#32) .motor .written
        [ (.motorTemp, (byteAt b.data 0 : Int) - 40), (.invTemp, (byteAt b.data 1 : Int) - 40),
          (.motorRpm, signed16 (byteAt b.data 2 + 256 * byteAt b.data 3)),
          (.dcVolt, ((byteAt b.data 4 + 256 * byteAt b.data 5 : Nat) : Int)),
          (.dcCurr, signed16 (byteAt b.data 6 + 256 * byteAt b.data 7)) ]))

/-- R86: `DR_PUFLAGS` (code 2), decoded from identifier 7, always completes, with no sentinel test, and the frame is the
beacon whatever its payload.
That the instruction is the receive that loads `FRM`, echoes, fills `PEND` and enters `S_DISPATCH` is log entry 14
(DEDUCED from R80, R120 and R121). -/
def Obligations.PuflagsRuleResult : Prop :=
  Rule.puflags.code.toNat = 2 ∧ ∀ (b : FrameBody) (s : State),
    ((s.cfg.ideQualified = true → b.ide = false) → isBeacon s.cfg (b.withId 7#32) = true ∧
      ((b.withId 7#32).wf = true → decodeFrame s.cfg (b.withId 7#32) = .ok (.drPuflags b))) ∧
    exec (.drPuflags b) s = .next (s.dispatching (b.withId 7#32) .puflags .written
      [(.puFlags, ((byteAt b.data 0 + 256 * byteAt b.data 1 : Nat) : Int))])

/-- R88: `DR_BMS0` (code 3) under a well-formed configuration.
That the instruction is the receive that loads `FRM`, echoes, fills `PEND` and enters `S_DISPATCH` is log entry 14
(DEDUCED from R80, R120 and R121). -/
def Obligations.Bms0RuleResult : Prop :=
  Rule.bms0.code.toNat = 3 ∧ ∀ (b : FrameBody) (s : State), configOk s.cfg = true →
    ((.drBms0 b : Instr).wf s.cfg = true → decodeFrame s.cfg (b.withId (s.cfg.bmsPrefix ++ 0x0000#16)) = .ok (.drBms0 b)) ∧
    exec (.drBms0 b) s = .next (s.dispatching (b.withId (s.cfg.bmsPrefix ++ 0x0000#16)) .bms0 .written
      [ (.bmsInFlags, (beValue b.data s.cfg.layout.inFlags : Int)),
        (.bmsOutFlags, (beValue b.data s.cfg.layout.outFlags : Int)),
        (.bmsCellCount, (beValue b.data s.cfg.layout.cellCount : Int)),
        (.bmsChgState, (beValue b.data s.cfg.layout.chgState : Int)),
        (.bmsChgDuration, (beValue b.data s.cfg.layout.chgDuration : Int)),
        (.bmsLastErr, (beValue b.data s.cfg.layout.lastErr : Int)) ])

/-- R89: `DR_BMS2` (code 4) under a well-formed configuration.
That the instruction is the receive that loads `FRM`, echoes, fills `PEND` and enters `S_DISPATCH` is log entry 14
(DEDUCED from R80, R120 and R121). -/
def Obligations.Bms2RuleResult : Prop :=
  Rule.bms2.code.toNat = 4 ∧ ∀ (b : FrameBody) (s : State), configOk s.cfg = true →
    ((.drBms2 b : Instr).wf s.cfg = true → decodeFrame s.cfg (b.withId (s.cfg.bmsPrefix ++ 0x0002#16)) = .ok (.drBms2 b)) ∧
    exec (.drBms2 b) s = .next (s.dispatching (b.withId (s.cfg.bmsPrefix ++ 0x0002#16)) .bms2 .written
      [ (.modTMin, (beValue b.data s.cfg.layout.modTMin : Int) - s.cfg.bmsTempBias),
        (.modTMax, (beValue b.data s.cfg.layout.modTMax : Int) - s.cfg.bmsTempBias),
        (.modTAvg, (beValue b.data s.cfg.layout.modTAvg : Int) - s.cfg.bmsTempBias) ])

/-- R90: `DR_BMS7` (code 5) under a well-formed configuration.
That the instruction is the receive that loads `FRM`, echoes, fills `PEND` and enters `S_DISPATCH` is log entry 14
(DEDUCED from R80, R120 and R121). -/
def Obligations.Bms7RuleResult : Prop :=
  Rule.bms7.code.toNat = 5 ∧ ∀ (b : FrameBody) (s : State), configOk s.cfg = true →
    ((.drBms7 b : Instr).wf s.cfg = true → decodeFrame s.cfg (b.withId (s.cfg.bmsPrefix ++ 0x0007#16)) = .ok (.drBms7 b)) ∧
    exec (.drBms7 b) s = .next (s.dispatching (b.withId (s.cfg.bmsPrefix ++ 0x0007#16)) .bms7 .written
      [ (.bmsProtFlags, (beValue b.data s.cfg.layout.protFlags : Int)),
        (.bmsRedFlags, (beValue b.data s.cfg.layout.redFlags : Int)),
        (.bmsBattStatus, (beValue b.data s.cfg.layout.battStatus : Int)) ])

/-- R91: `DR_BMS8` (code 6) under a well-formed configuration.
That the instruction is the receive that loads `FRM`, echoes, fills `PEND` and enters `S_DISPATCH` is log entry 14
(DEDUCED from R80, R120 and R121). -/
def Obligations.Bms8RuleResult : Prop :=
  Rule.bms8.code.toNat = 6 ∧ ∀ (b : FrameBody) (s : State), configOk s.cfg = true →
    ((.drBms8 b : Instr).wf s.cfg = true → decodeFrame s.cfg (b.withId (s.cfg.bmsPrefix ++ 0x0008#16)) = .ok (.drBms8 b)) ∧
    exec (.drBms8 b) s = .next (s.dispatching (b.withId (s.cfg.bmsPrefix ++ 0x0008#16)) .bms8 .written
      [ (.cellTMin, (beValue b.data s.cfg.layout.cellTMin : Int) - s.cfg.bmsTempBias),
        (.cellTMax, (beValue b.data s.cfg.layout.cellTMax : Int) - s.cfg.bmsTempBias),
        (.cellTAvg, (beValue b.data s.cfg.layout.cellTAvg : Int) - s.cfg.bmsTempBias) ])

/-- R92: `DR_BMS500` (code 7) under a well-formed configuration, in both variants of the state of charge.
That the instruction is the receive that loads `FRM`, echoes, fills `PEND` and enters `S_DISPATCH` is log entry 14
(DEDUCED from R80, R120 and R121). -/
def Obligations.Bms500RuleResult : Prop :=
  Rule.bms500.code.toNat = 7 ∧ ∀ (b : FrameBody) (s : State), configOk s.cfg = true →
    ((.drBms500 b : Instr).wf s.cfg = true → decodeFrame s.cfg (b.withId (s.cfg.bmsPrefix ++ 0x0500#16)) = .ok (.drBms500 b)) ∧
    exec (.drBms500 b) s = .next (s.dispatching (b.withId (s.cfg.bmsPrefix ++ 0x0500#16)) .bms500 .written
      [ (.packCurr, signed16 (beValue b.data s.cfg.layout.packCurr)),
        (.packCharge, (beValue b.data s.cfg.layout.packCharge : Int)),
        (.soc, (beValue b.data s.cfg.layout.soc : Int)) ])

/-- R93: every identifier no other entry takes is `DR_IGNORE`'s: it completes with no field update and no error, and
its beacon check gives no command.
That the instruction is the receive that loads `FRM`, echoes, fills `PEND` and enters `S_DISPATCH` is log entry 14
(DEDUCED from R80, R120 and R121). The frame the beacon check leaves in `FRM` is log entry 23 (DESIGN CHOICE). -/
def Obligations.IgnoreRuleResult : Prop :=
  Rule.ignore.code.toNat = 0 ∧ ∀ (f : Frame) (s : State),
    let exactTakes := (f.id.toNat = 6 ∨ f.id.toNat = 7) ∧ (s.cfg.ideQualified = true → f.ide = false)
    let familyTakes := (∃ sub ∈ [0, 2, 7, 8, 0x500], f.id.toNat = 65536 * s.cfg.bmsPrefix.toNat + sub) ∧
      (s.cfg.ideQualified = true → f.ide = true)
    exec (.drIgnore f.id f.body) s = .next (s.dispatching f .ignore .ignored []) ∧
    (f.wf = true → ¬ exactTakes → ¬ familyTakes →
      decodeFrame s.cfg f = .ok (.drIgnore f.id f.body) ∧
        beaconCheck { s with frm := f } = .next { s with frm := f, sync := .wait })

/-- R71: `DR_MOTOR`'s and `DR_PUFLAGS`' write sets are what the extractors of the table give. -/
def Obligations.FixedRulesFollowExtractors : Prop :=
  ∀ d : Payload,
    extractAll d [ ⟨.motorTemp, [0], false, 40⟩, ⟨.invTemp, [1], false, 40⟩, ⟨.motorRpm, [3, 2], true, 0⟩,
        ⟨.dcVolt, [5, 4], false, 0⟩, ⟨.dcCurr, [7, 6], true, 0⟩ ] = some (motorWrites d) ∧
    (∃ w, puflagsRule d = .ok (.written, w) ∧ extractAll d [⟨.puFlags, [1, 0], false, 0⟩] = some w)

/-- R82 and R83: under a well-formed configuration every rule gives an outcome and a write set, every value fits its
field, no field is written twice, and `GROUND_SPEED` never. -/
def Obligations.RuleValuesFitTheirFields : Prop :=
  ∀ (p : Params) (f : Frame), configOk p = true →
    ∃ o w, dispatchOf p f = .ok (o, w) ∧ (∀ x ∈ w, fieldFits x.1 x.2 = true ∧ x.1 ≠ .groundSpeed) ∧
      (w.map Prod.fst).Nodup ∧ (o ≠ .written → w = [])

/-- R80 and R121: receiving a well-formed frame selects its rule, runs it on the frame alone, and enters dispatch. -/
def Obligations.ReceiveEntersDispatchWithRuleAnswer : Prop :=
  ∀ (s : State) (f : Frame) (o : DispOutcome) (w : List (Field × Int)),
    configOk s.cfg = true → f.wf = true → dispatchOf s.cfg f = .ok (o, w) →
    perform (.recv (.frame f)) s = .next (s.dispatching f (select s.cfg f) o w)

/-- R120: the other answers of the Frame Source, and the frame that is not well formed.
`FRM` outside `S_DISPATCH` and `S_KICK` is kept by log entry 23 (DESIGN CHOICE). -/
def Obligations.ReceiveWithoutFrame : Prop :=
  ∀ s : State,
    perform (.recv .none) s = .next { s with sync := .wait } ∧
    perform (.recv .error) s = .next { s with evh := s.evh ++ [.transportFault], sync := .wait } ∧
    ∀ f : Frame,
      (8 < f.dlc.toNat ∨ (f.ide = false ∧ 2 ^ 11 ≤ f.id.toNat) ∨ (f.ide = true ∧ 2 ^ 29 ≤ f.id.toNat)) →
      perform (.recv (.frame f)) s = .refused .badFrame

/-! ## The timer commands -/

/-- R100: `START k`: its effect and its encoding on a slot of the host's, and its refusal on `ACT_SLOT` and from
any other issuer (from FAS or the scheduler: log entry 16, DEDUCED from R75, R133 and R143; not in R76's list).
`FRM` outside `S_DISPATCH` and `S_KICK` is kept by log entry 23 (DESIGN CHOICE). -/
def Obligations.StartResult : Prop :=
  ∀ (s : State) (k : BitVec 8) (x : Timer), s.tmr[k.toNat]? = some x →
    let word : BitVec 16 := 0x1000#16 ||| k.setWidth 16
    (k.toNat ≠ s.cfg.actSlot → exec (.start k) s = .next (s.setTimer k.toNat
      { timeout := x.timeout, repeats := x.repeats, cb := x.cb, running := true, lastReset := s.now })) ∧
    (k.toNat < s.cfg.nTimers → k.toNat ≠ s.cfg.actSlot → decodeCommand s.cfg .host word = .ok (.start k)) ∧
    (k.toNat = s.cfg.actSlot → exec (.start k) s = .refused (.badCommand .issuer)) ∧
    (k.toNat < s.cfg.nTimers → ∀ by_, by_ ≠ .host ∨ k.toNat = s.cfg.actSlot →
      decodeCommand s.cfg by_ word = .error (.badCommand .issuer))

/-- R101: `STOP k`: its effect and its encoding on a slot of the host's, and its refusal on `ACT_SLOT` and from
any other issuer (from FAS or the scheduler: log entry 16, DEDUCED from R75, R133 and R143; not in R76's list).
`FRM` outside `S_DISPATCH` and `S_KICK` is kept by log entry 23 (DESIGN CHOICE). -/
def Obligations.StopResult : Prop :=
  ∀ (s : State) (k : BitVec 8) (x : Timer), s.tmr[k.toNat]? = some x →
    let word : BitVec 16 := 0x2000#16 ||| k.setWidth 16
    (k.toNat ≠ s.cfg.actSlot → exec (.stop k) s = .next (s.setTimer k.toNat
      { timeout := x.timeout, repeats := x.repeats, cb := x.cb, running := false, lastReset := x.lastReset })) ∧
    (k.toNat < s.cfg.nTimers → k.toNat ≠ s.cfg.actSlot → decodeCommand s.cfg .host word = .ok (.stop k)) ∧
    (k.toNat = s.cfg.actSlot → exec (.stop k) s = .refused (.badCommand .issuer)) ∧
    (k.toNat < s.cfg.nTimers → ∀ by_, by_ ≠ .host ∨ k.toNat = s.cfg.actSlot →
      decodeCommand s.cfg by_ word = .error (.badCommand .issuer))

/-- R102: `RESET k`: its effect and its encoding on a slot of the host's, and its refusal on `ACT_SLOT` and from
any other issuer (from FAS or the scheduler: log entry 16, DEDUCED from R75, R133 and R143; not in R76's list).
`FRM` outside `S_DISPATCH` and `S_KICK` is kept by log entry 23 (DESIGN CHOICE). -/
def Obligations.ResetCommandResult : Prop :=
  ∀ (s : State) (k : BitVec 8) (x : Timer), s.tmr[k.toNat]? = some x →
    let word : BitVec 16 := 0x3000#16 ||| k.setWidth 16
    (k.toNat ≠ s.cfg.actSlot → exec (.reset k) s = .next (s.setTimer k.toNat
      { timeout := x.timeout, repeats := x.repeats, cb := x.cb, running := x.running, lastReset := s.now })) ∧
    (k.toNat < s.cfg.nTimers → k.toNat ≠ s.cfg.actSlot → decodeCommand s.cfg .host word = .ok (.reset k)) ∧
    (k.toNat = s.cfg.actSlot → exec (.reset k) s = .refused (.badCommand .issuer)) ∧
    (k.toNat < s.cfg.nTimers → ∀ by_, by_ ≠ .host ∨ k.toNat = s.cfg.actSlot →
      decodeCommand s.cfg by_ word = .error (.badCommand .issuer))

/-- R103: `KICK k` of `ACT_SLOT`, from Off and from On, with its encoding and its only issuer.
`FRM` outside `S_DISPATCH` and `S_KICK` is kept by log entry 23 (DESIGN CHOICE).
That test and effect are one step is the spec's decision D27. -/
def Obligations.KickResult : Prop :=
  ∀ (s : State) (k : BitVec 8) (x : Timer), s.tmr[k.toNat]? = some x → k.toNat = s.cfg.actSlot →
    (k.toNat < s.cfg.nTimers → decodeCommand s.cfg .fas (0x4000#16 ||| k.setWidth 16) = .ok (.kick k) ∧
      ∀ by_, by_ ≠ .fas → decodeCommand s.cfg by_ (0x4000#16 ||| k.setWidth 16) = .error (.badCommand .issuer)) ∧
    let y : Timer := { timeout := x.timeout, repeats := x.repeats, cb := x.cb, running := true, lastReset := s.now }
    (x.running = false → exec (.kick k) s = .next
      { s with
        tmr := s.tmr.set k.toNat y
        mode := .ready
        autoUpdate := true
        evh := s.evh ++ [.activityStarted, .modeSet .ready, .autoUpdate true, .gaugeStandby false] }) ∧
    (x.running = true → exec (.kick k) s = .next { s with tmr := s.tmr.set k.toNat y })

/-- R104, R106 and R108: `CHECK k` of a slot that is not expired, and of one that is, by its callback and its mode, with
its encoding and its only issuer.
`FRM` outside `S_DISPATCH` and `S_KICK` is kept by log entry 23 (DESIGN CHOICE).
That the check with its callback is one step, and the wrap of the elapsed time, are the spec's decisions D25 and D19. -/
def Obligations.CheckResult : Prop :=
  ∀ (s : State) (k : BitVec 8) (x : Timer), s.tmr[k.toNat]? = some x →
    let isExpired := x.running = true ∧ x.timeout.toNat ≤ (s.now.toNat + 2 ^ 32 - x.lastReset.toNat) % 2 ^ 32
    let y : Timer := { x with running := x.repeats, lastReset := if x.repeats = true then s.now else x.lastReset }
    (k.toNat < s.cfg.nTimers → decodeCommand s.cfg .scheduler (0x5000#16 ||| k.setWidth 16) = .ok (.check k) ∧
      ∀ by_, by_ ≠ .scheduler → decodeCommand s.cfg by_ (0x5000#16 ||| k.setWidth 16) = .error (.badCommand .issuer)) ∧
    (¬ isExpired → exec (.check k) s = .next s) ∧
    (isExpired → x.cb ≠ 1#4 → exec (.check k) s = .next
      { s with tmr := s.tmr.set k.toNat y, evh := s.evh ++ [.timerExpired k x.cb] }) ∧
    (isExpired → x.cb = 1#4 → exec (.check k) s = .next
      { s with
        tmr := s.tmr.set k.toNat y
        mode := .idle
        autoUpdate := false
        evh := s.evh ++ [.activityStopped, .modeSet .idle, .autoUpdate false, .gaugeStandby true] ++
          (if s.cfg.gaugeRestOnStop = true then [.gaugeRest] else []) })

/-- R76 and R24: the owner's commands are refused on `ACT_SLOT`, KICK on any other slot, and every command on a slot
the registry does not have. -/
def Obligations.CommandsRefusedOffTheirSlots : Prop :=
  ∀ (s : State) (k : BitVec 8),
    (k.toNat = s.cfg.actSlot → k.toNat < s.tmr.length →
      exec (.start k) s = .refused (.badCommand .issuer) ∧ exec (.stop k) s = .refused (.badCommand .issuer) ∧
      exec (.reset k) s = .refused (.badCommand .issuer)) ∧
    (k.toNat ≠ s.cfg.actSlot → exec (.kick k) s = .refused (.badCommand .slot)) ∧
    (s.tmr.length ≤ k.toNat →
      ∀ i ∈ [Instr.start k, .stop k, .reset k, .kick k, .check k], exec i s = .refused (.badCommand .slot))

/-- R156: a beacon and an expiry at the same tick, in both orders.
That KICK and CHECK are one step each is the spec's decisions D27 and D25. -/
def Obligations.BeaconAgainstExpiry : Prop :=
  ∀ (s : State) (x : Timer), s.Inv → s.phase = .run → s.sync = .kick → isBeacon s.cfg s.frm = true →
    s.schIdx.toNat = s.cfg.actSlot → s.tmr[s.cfg.actSlot]? = some x → expired s.now x = true →
    (∃ u t, perform .schedCheck s = .next u ∧ perform .beaconCheck u = .next t ∧ u.isOn = false ∧
      t.isOn = true ∧ u.mode = .idle ∧ t.mode = .ready ∧
      t.evh = s.evh ++ [.activityStopped, .modeSet .idle, .autoUpdate false, .gaugeStandby true] ++
        (if s.cfg.gaugeRestOnStop = true then [.gaugeRest] else []) ++
        [.activityStarted, .modeSet .ready, .autoUpdate true, .gaugeStandby false]) ∧
    (∃ u t, perform .beaconCheck s = .next u ∧ perform .schedCheck u = .next t ∧ u.isOn = true ∧ t.isOn = true ∧
      t.evh = s.evh ∧ t.mode = s.mode ∧ t.autoUpdate = s.autoUpdate ∧
      ∃ y, t.tmr[s.cfg.actSlot]? = some y ∧ y.lastReset = s.now)

/-- R22: the parameters and the cfg fields of every slot are read-only in the run phase: every step keeps them, but a
restart, which ends the run. -/
def Obligations.ConfigurationReadOnlyInRunPhase : Prop :=
  ∀ s t : State, s.phase = .run → step s = .next t → t.phase = .run →
    t.cfg = s.cfg ∧ t.tmr.map Timer.init = s.tmr.map Timer.init

/-- R157, one step of it: STOPPED is emitted only by a step that finds the Activity Watchdog On and its elapsed time
at least `ACT_TIMEOUT`; and in the run phase its `LAST_RESET` changes only to the `NOW` of a beacon's kick.
The elapsed time modulo 2^32 is the spec's decision D19. -/
def Obligations.OffTransitionNeverEarly : Prop :=
  ∀ (s t : State) (x : Timer), s.Inv → s.phase = .run → step s = .next t → s.tmr[s.cfg.actSlot]? = some x →
    (stoppedCount s.evh < stoppedCount t.evh →
      x.running = true ∧ s.cfg.actTimeout.toNat ≤ (s.now - x.lastReset).toNat ∧ t.isOn = false) ∧
    (t.phase = .run → ∀ y, t.tmr[s.cfg.actSlot]? = some y → y.lastReset ≠ x.lastReset →
      y.lastReset = s.now ∧ s.sync = .kick ∧ isBeacon s.cfg s.frm = true)

/-- R110: every transition of the Activity Watchdog in the run phase is one of the table's. -/
def Obligations.ActivityTransitionsAreTheTables : Prop :=
  ∀ s t : State, s.Inv → s.phase = .run → step s = .next t → t.phase = .run →
    (s.isOn = false → t.isOn = true →
      s.sync = .kick ∧ isBeacon s.cfg s.frm = true ∧ t.sync = .wait ∧
      t.evh = s.evh ++ [.activityStarted, .modeSet .ready, .autoUpdate true, .gaugeStandby false]) ∧
    (s.isOn = true → t.isOn = false →
      s.schIdx.toNat = s.cfg.actSlot ∧
      (∃ x, s.tmr[s.cfg.actSlot]? = some x ∧ s.cfg.actTimeout.toNat ≤ (s.now - x.lastReset).toNat) ∧
      t.evh = s.evh ++ [.activityStopped, .modeSet .idle, .autoUpdate false, .gaugeStandby true] ++
        (if s.cfg.gaugeRestOnStop = true then [.gaugeRest] else [])) ∧
    (s.isOn = t.isOn → startedCount t.evh = startedCount s.evh ∧ stoppedCount t.evh = stoppedCount s.evh)

/-! ## The agents -/

/-- R26: one tick, and nothing else, moves `NOW`, by one modulo 2^32.
`FRM` outside `S_DISPATCH` and `S_KICK` is kept by log entry 23 (DESIGN CHOICE). -/
def Obligations.TimeBaseTicks : Prop :=
  (∀ s : State, perform .tick s = .next { s with now := BitVec.ofNat 32 ((s.now.toNat + 1) % 2 ^ 32) }) ∧
  (∀ (a : Act) (s t : State), perform a s = .next t → a ≠ .tick → (∀ d, a ≠ .restart d) → t.now = s.now)

/-- R118 and R119: the interrupt's wake and the three ways out of `S_WAIT`, with when each is enabled.
`FRM` outside `S_DISPATCH` and `S_KICK` is kept by log entry 23 (DESIGN CHOICE). -/
def Obligations.WakesAndWaits : Prop :=
  ∀ s : State, s.phase = .run →
    perform .irq s = .next { s with wakeCnt := min (s.wakeCnt + 1) (max s.wakeCnt s.cfg.wakeMax) } ∧
    (enabled .waitTake s = true ↔ s.sync = .wait ∧ s.cfg.rxMode = .irq ∧ 0 < s.wakeCnt) ∧
    (enabled .waitTimeout s = true ↔ s.sync = .wait ∧ s.cfg.rxMode = .irq) ∧
    (enabled .waitPoll s = true ↔ s.sync = .wait ∧ s.cfg.rxMode = .poll) ∧
    perform .waitTake s = .next { s with sync := .recv, wakeCnt := s.wakeCnt - 1 } ∧
    perform .waitTimeout s = .next { s with sync := .recv } ∧
    perform .waitPoll s = .next { s with sync := .recv }

/-- R122 and R123: any pending write may go next, and dispatch ends exactly when none is left. -/
def Obligations.WritesThenEndOfDispatch : Prop :=
  ∀ s : State, s.Inv → s.phase = .run → s.sync = .dispatch →
    (∀ f v, (f, v) ∈ s.pend →
      enabled (.write f v) s = true ∧
      ∃ t, perform (.write f v) s = .next t ∧ t.record.get f = v ∧ (∀ g, g ≠ f → t.record.get g = s.record.get g) ∧
        (∀ x, x ∈ t.pend ↔ x ∈ s.pend ∧ x ≠ (f, v)) ∧
        t = { s with record := t.record, pend := t.pend }) ∧
    (∀ f v, (f, v) ∉ s.pend → enabled (.write f v) s = false) ∧
    (enabled .endDispatch s = true ↔ s.pend = []) ∧
    perform .endDispatch s = .next { s with sync := .kick }

/-- R124: the beacon check: a beacon kicks `ACT_SLOT` in the same step, any other frame gives no command.
`FRM` outside `S_DISPATCH` and `S_KICK` is kept by log entry 23 (DESIGN CHOICE).
That KICK's test and effect are one step is the spec's decision D27. -/
def Obligations.BeaconCheckKicksOnce : Prop :=
  ∀ s : State, s.Inv → s.phase = .run → s.sync = .kick →
    (enabled .beaconCheck s = true) ∧
    ((s.frm.id.toNat = 7 ∧ (s.cfg.ideQualified = true → s.frm.ide = false)) →
      ∃ u, exec (.kick (BitVec.ofNat 8 s.cfg.actSlot)) s = .next u ∧
        perform .beaconCheck s = .next { u with sync := .wait } ∧ u.isOn = true ∧
        ∃ y, u.tmr[s.cfg.actSlot]? = some y ∧ y.lastReset = s.now) ∧
    (¬ (s.frm.id.toNat = 7 ∧ (s.cfg.ideQualified = true → s.frm.ide = false)) →
      perform .beaconCheck s = .next { s with sync := .wait })

/-- R105: the scheduler's step, at every state of the run phase: the check of `SCH_IDX`, then the next index modulo
`NTIMERS`.
`FRM` outside `S_DISPATCH` and `S_KICK` is kept by log entry 23 (DESIGN CHOICE). -/
def Obligations.SchedulerStepAlwaysTaken : Prop :=
  ∀ s : State, s.Inv → s.phase = .run →
    enabled .schedCheck s = true ∧
    ∃ u, exec (.check s.schIdx) s = .next u ∧
      perform .schedCheck s = .next { u with schIdx := BitVec.ofNat 8 ((s.schIdx.toNat + 1) % s.cfg.nTimers) }

/-- R105 and R138 item 2: a sweep from slot 0 checks every slot once, in index order, and comes back to slot 0: each
expired slot is disarmed or re-armed, its callback's events come in index order, an expiry of the Activity Watchdog
leaves `MODE` idle and `AUTO_UPDATE` 0, and nothing else moves: not the record, not FAS's state (`sync_state`, `FRM`,
`PEND`, `WAKE_CNT`), not the monitor. The schedule is the model's (log entry 1).
`FRM` outside `S_DISPATCH` and `S_KICK` is kept by log entry 23 (DESIGN CHOICE).
That a check with its callback is one step, and the index order, are the spec's decision D25. -/
def Obligations.SweepChecksEverySlotInOrder : Prop :=
  ∀ (s : State) (rest : List Act), s.Inv → s.phase = .run → s.schIdx = 0#8 → s.script = sweepActs s.cfg ++ rest →
    ∃ t, Host.Core.run Sys2Proof.core s.cfg.nTimers s = .next t ∧
      (∀ k : Nat, t.tmr[k]? = s.tmr[k]?.map (fun x =>
        if x.running = true ∧ x.timeout.toNat ≤ (s.now - x.lastReset).toNat then
          { x with running := x.repeats, lastReset := if x.repeats = true then s.now else x.lastReset }
        else x)) ∧
      t.evh = s.evh ++ (List.range s.cfg.nTimers).flatMap (fun k => match s.tmr[k]? with
        | none => []
        | some x =>
          if x.running = true ∧ x.timeout.toNat ≤ (s.now - x.lastReset).toNat then
            if k = s.cfg.actSlot then
              [.activityStopped, .modeSet .idle, .autoUpdate false, .gaugeStandby true] ++
                (if s.cfg.gaugeRestOnStop = true then [.gaugeRest] else [])
            else [.timerExpired (BitVec.ofNat 8 k) x.cb]
          else []) ∧
      (∀ x, s.tmr[s.cfg.actSlot]? = some x →
        if x.running = true ∧ x.timeout.toNat ≤ (s.now - x.lastReset).toNat then t.mode = .idle ∧ t.autoUpdate = false
        else t.mode = s.mode ∧ t.autoUpdate = s.autoUpdate) ∧
      t.schIdx = 0#8 ∧ t.script = rest ∧ t.record = s.record ∧ t.now = s.now ∧ t.phase = s.phase ∧ t.cfg = s.cfg ∧
      t.sync = s.sync ∧ t.frm = s.frm ∧ t.pend = s.pend ∧ t.wakeCnt = s.wakeCnt ∧
      t.monEn = s.monEn ∧ t.monFilterEn = s.monFilterEn ∧ t.monId = s.monId

/-- R129: FAS never deadlocks: in the run phase one of its steps is enabled and completes, for every answer of the
Frame Source. -/
def Obligations.FasNeverDeadlocks : Prop :=
  ∀ s : State, s.Inv → s.phase = .run →
    (s.sync = .wait → s.cfg.rxMode = .irq → enabled .waitTimeout s = true) ∧
    (s.sync = .wait → s.cfg.rxMode = .poll → enabled .waitPoll s = true) ∧
    (s.sync = .recv → enabled (.recv .none) s = true ∧ enabled (.recv .error) s = true ∧
      ∀ f, f.wf = true → enabled (.recv (.frame f)) s = true ∧ ∃ t, perform (.recv (.frame f)) s = .next t) ∧
    (s.sync = .dispatch → s.pend ≠ [] → ∃ f v, enabled (.write f v) s = true) ∧
    (s.sync = .dispatch → s.pend = [] → enabled .endDispatch s = true) ∧
    (s.sync = .kick → enabled .beaconCheck s = true ∧ ∃ t, perform .beaconCheck s = .next t)

/-- R105's fairness: in a fair run that is never restarted, every slot is checked infinitely often. How the assumed
fairness is said, `FairScheduler` on infinite runs, is log entry 18 (DESIGN CHOICE). -/
def Obligations.EverySlotCheckedInfinitelyOften : Prop :=
  ∀ (tr : Nat → State) (acts : Nat → Act), IsRun tr acts → FairScheduler tr acts → (tr 0).Inv →
    (tr 0).phase = .run → (∀ n, isRestart (acts n) = false) →
    ∀ n k, k < (tr 0).cfg.nTimers → ∃ m, n ≤ m ∧ isSchedulerAct (acts m) = true ∧ (tr m).schIdx.toNat = k

/-- R128 and R129 together: in a fair run that is never restarted, FAS always comes back to `S_WAIT`, whatever the Frame
Source answers and whatever the other agents do. How the assumed fairness is said, `FairFas`, of FAS's steps together,
is log entry 18 (DESIGN CHOICE). -/
def Obligations.FasAlwaysReturnsToWait : Prop :=
  ∀ (tr : Nat → State) (acts : Nat → Act), IsRun tr acts → FairFas tr acts → (tr 0).Inv → (tr 0).phase = .run →
    (∀ n, isRestart (acts n) = false) → ∀ n, ∃ m, n ≤ m ∧ (tr m).sync = .wait

/-! ## The record and its ports -/

/-- R45: the reader port, at any step of the run phase (log entry 19); where the answer goes is log entry 2.
`FRM` outside `S_DISPATCH` and `S_KICK` is kept by log entry 23 (DESIGN CHOICE).
What a reader sees right after a write rests on the spec's decision D45 (sequential consistency per field). -/
def Obligations.ReadReturnsField : Prop :=
  ∀ (s : State) (n : Nat),
    (s.phase = .run → enabled (.read n) s = true) ∧
    (n ≤ 24 → ∃ f, fieldIdx f = n ∧ perform (.read n) s = .next { s with reply := some (.value (s.record.get f)) }) ∧
    (24 < n → perform (.read n) s = .refused .badField)

/-- R47: a read returns, whole, the value of the most recent write of the field, whatever was written to other fields
in between, or the reset value if there was none.
What a reader sees right after a write rests on the spec's decision D45 (sequential consistency per field). -/
def Obligations.ReadReturnsMostRecentWrite : Prop :=
  ∀ (f : Field) (later : List (Field × Int)), (∀ x ∈ later, x.1 ≠ f) →
    (∀ (r : Rec) (v : Int), fieldFits f v = true → (applyWrites (r.set f v) later).get f = v) ∧
    (applyWrites Rec.zero later).get f = 0

/-- R15: fields 0 to 23 change only by a write of FAS of a pending pair, `GROUND_SPEED` only by the speed module, and
either by a restart. -/
def Obligations.EachFieldHasOneWriter : Prop :=
  ∀ (a : Act) (s t : State), s.Inv → enabled a s = true → perform a s = .next t → isRestart a = false →
    (∀ f, f ≠ .groundSpeed → t.record.get f ≠ s.record.get f →
      ∃ v, a = .write f v ∧ (f, v) ∈ s.pend ∧ t.record.get f = v) ∧
    (t.record.get .groundSpeed ≠ s.record.get .groundSpeed → a = .setGroundSpeed (t.record.get .groundSpeed))

/-- One frame from its receive to its beacon check, with its writes in any order (R122, R127): the record holds every
value of the write set and is otherwise as before, FAS is back in `S_WAIT` with nothing pending, and a frame
that is no beacon leaves the timers, `MODE` and `AUTO_UPDATE` as they were and adds no event but its echo. The schedule
is the model's (log entry 1). -/
def Obligations.FrameCompletesInAnyWriteOrder : Prop :=
  ∀ (s : State) (f : Frame) (o : DispOutcome) (w order : List (Field × Int)) (rest : List Act),
    s.Inv → s.phase = .run → s.sync = .recv → f.wf = true → dispatchOf s.cfg f = .ok (o, w) → order.Perm w →
    s.script = .recv (.frame f) :: (writeActs order ++ .endDispatch :: .beaconCheck :: rest) →
    ∃ t, Host.Core.run Sys2Proof.core (order.length + 3) s = .next t ∧
      (∀ x ∈ w, t.record.get x.1 = x.2) ∧ (∀ g, g ∉ w.map Prod.fst → t.record.get g = s.record.get g) ∧
      t.pend = [] ∧ t.sync = .wait ∧ t.script = rest ∧ t.cfg = s.cfg ∧ t.now = s.now ∧
      (isBeacon s.cfg f = true → t.isOn = true ∧ ∃ y, t.tmr[s.cfg.actSlot]? = some y ∧ y.lastReset = s.now) ∧
      (isBeacon s.cfg f = false →
        t.tmr = s.tmr ∧ t.mode = s.mode ∧ t.autoUpdate = s.autoUpdate ∧
        t.evh = s.evh ++ echoOf s f (select s.cfg f) o)

/-- R50 and R155: part-way through a frame's writes, a reader sees exactly those performed on top of the record as it
was, and the rest are still pending.
What a reader sees right after a write rests on the spec's decision D45 (sequential consistency per field).
The schedule is the model's own (log entry 1). -/
def Obligations.ReaderSeesSubsetOfFrameWrites : Prop :=
  ∀ (s : State) (done left : List (Field × Int)) (rest : List Act),
    s.Inv → s.phase = .run → s.sync = .dispatch → (done ++ left).Perm s.pend → s.script = writeActs done ++ rest →
    ∃ t, Host.Core.run Sys2Proof.core done.length s = .next t ∧
      (∀ x ∈ done, t.record.get x.1 = x.2) ∧ (∀ g, g ∉ done.map Prod.fst → t.record.get g = s.record.get g) ∧
      t.pend.Perm left ∧ t.sync = .dispatch ∧ t.script = rest

/-! ## Registers -/

/-- The control and status registers (10_state.md section 8): what every index reads as, reserved ones as 0. -/
def Obligations.RegisterMapReads : Prop :=
  ∀ s : State,
    (s.readReg 0x000).toNat = s.monEn.toNat + 2 * s.monFilterEn.toNat ∧
    (s.readReg 0x001).toNat = s.monId.toNat ∧
    (s.readReg 0x002).toNat = s.isOn.toNat ∧
    (s.wakeCnt < 2 ^ 32 → (s.readReg 0x003).toNat = s.wakeCnt) ∧
    (s.readReg 0x004).toNat = s.now.toNat ∧
    (s.readReg 0x005).toNat =
      (match s.sync with | .wait => 0 | .recv => 1 | .dispatch => 2 | .kick => 3) ∧
    (s.readReg 0x006).toNat = s.schIdx.toNat ∧
    (∀ n, 0x007 ≤ n → n < 0x100 → s.readReg n = 0#32) ∧
    (∀ k x, s.tmr[k]? = some x →
      (s.readReg (0x100 + 4 * k)).toNat = x.running.toNat + 2 * x.repeats.toNat + 16 * x.cb.toNat ∧
      s.readReg (0x101 + 4 * k) = x.timeout ∧ s.readReg (0x102 + 4 * k) = x.lastReset ∧
      s.readReg (0x103 + 4 * k) = 0#32) ∧
    (∀ n, 0x100 + 4 * s.tmr.length ≤ n → s.readReg n = 0#32)

/-- The host's register accesses (10_state.md section 8): a read changes nothing, a write takes only `MON_CTRL` and
`MON_ID` and only with reserved bits clear, and every other write is refused.
`FRM` outside `S_DISPATCH` and `S_KICK` is kept by log entry 23 (DESIGN CHOICE). -/
def Obligations.HostRegisterAccess : Prop :=
  ∀ (s : State) (n : Nat) (v : BitVec 32),
    perform (.regRead n) s = .next { s with reply := some (.value ((s.readReg n).toNat : Int)) } ∧
    (n = 0x000 → v.toNat < 4 → perform (.regWrite n v) s =
      .next { s with monEn := decide (v.toNat % 2 = 1), monFilterEn := decide (v.toNat / 2 = 1) }) ∧
    (n = 0x001 → v.toNat < 2 ^ 29 → perform (.regWrite n v) s =
      .next { s with monId := BitVec.ofNat 29 v.toNat }) ∧
    ((n = 0x000 ∧ 4 ≤ v.toNat) ∨ (n = 0x001 ∧ 2 ^ 29 ≤ v.toNat) ∨ 0x002 ≤ n →
      perform (.regWrite n v) s = .refused .badRegWrite)

/-! ## Reset, startup and faults -/

/-- R8: the checks of a configuration, for a table with one entry a slot, and the refusal of one that fails any. -/
def Obligations.ConfigurationChecked : Prop :=
  ∀ p : Params, p.tmrInit.length = p.nTimers →
    (configOk p = true ↔ ConfigWellFormed p) ∧
    ∀ s : State, s.phase = .config →
      (ConfigWellFormed p → ∃ t, takeAct (.takeConfig p) s = .next t ∧ t.cfg = p) ∧
      (¬ ConfigWellFormed p → takeAct (.takeConfig p) s = .refused .badConfig)

/-- R73: a layout is accepted exactly when every list has its length, its indices in 0..7 and none twice. -/
def Obligations.LayoutChecked : Prop :=
  ∀ (l : Layout) (v : SocVariant), layoutOk l v = true ↔ LayoutWellFormed l v

/-- R149 and R150: the boot order from any reset: a well-formed configuration, one `configure`, then the run phase,
with every piece of state at R41's value and a failed `configure` logged.
`FRM` outside `S_DISPATCH` and `S_KICK` is kept by log entry 23 (DESIGN CHOICE).
The boot order is the spec's decision D40. -/
def Obligations.BootOrderFromReset : Prop :=
  ∀ (d : ResetDraws) (p : Params) (ok : Bool) (rest : List Act), configOk p = true →
    ∃ t, Host.Core.run Sys2Proof.core 2
        { State.resetWith d with script := .takeConfig p :: .configure ok :: rest } = .next t ∧
      t.phase = .run ∧ t.cfg = p ∧ (∀ f, t.record.get f = 0) ∧
      t.tmr.map Timer.init = p.tmrInit ∧ (∀ x ∈ t.tmr, x.running = false ∧ x.lastReset = 0#32) ∧
      t.isOn = false ∧ t.now = d.nowInit ∧ t.sync = .wait ∧ t.frm = d.frm ∧ t.pend = [] ∧ t.wakeCnt = 0 ∧
      t.schIdx = 0#8 ∧ t.monEn = false ∧ t.monFilterEn = false ∧ t.monId = 0#29 ∧ t.mode = d.mode ∧
      t.autoUpdate = d.autoUpdate ∧ t.evh = (if ok = true then [] else [.transportFault]) ∧ t.script = rest ∧ t.Inv

/-- R149 and R143: before the run phase nothing but startup and a restart is enabled. That R19, R20 and R38 ('at any
step') are read as any step of the run phase, so that reads, ticks, interrupts and the writes of `MODE`, `AUTO_UPDATE`
and `GROUND_SPEED` are not enabled here, is log entry 19 (DEDUCED, unsafe).
The boot order is the spec's decision D40. -/
def Obligations.NothingRunsBeforeStartup : Prop :=
  ∀ (s : State) (a : Act), s.phase ≠ .run → enabled a s = true →
    (∃ p, a = .takeConfig p ∧ s.phase = .config) ∨ (∃ ok, a = .configure ok ∧ s.phase = .setup) ∨ isRestart a = true

/-- R153: a restart is enabled at every state and leaves nothing of it. -/
def Obligations.RestartDiscardsEverything : Prop :=
  ∀ (s : State) (d : ResetDraws), enabled (.restart d) s = true ∧
    ∃ t, perform (.restart d) s = .next t ∧
      { t with script := [], drawCnt := 0 } = State.resetWith d ∧ t.isOn = false ∧ t.Inv

/-- The invariant holds right after reset, whatever reset draws. -/
def Obligations.InvariantAtReset : Prop := State.reset.Inv ∧ ∀ d, (State.resetWith d).Inv

/-- Every step keeps the invariant: the configuration stays the checked one, `PEND` holds only writes of the frame in
`FRM`, `GROUND_SPEED` a value of its type, STARTED and STOPPED alternate and agree with the Activity Watchdog (R111). -/
def Obligations.StepKeepsInvariant : Prop := ∀ s t : State, s.Inv → step s = .next t → t.Inv

/-- R131 and R12: the block takes no trap: no step of a state that meets the invariant ends in a fault. -/
def Obligations.NoStepFaults : Prop := ∀ (s : State) (e : Fault), s.Inv → step s ≠ .fault e

/-- A step runs the decoded instruction: a frame on the receive port, and a command word of the host's, of FAS's kick
step and of the scheduler's check, each with what its agent adds.
`FRM` outside `S_DISPATCH` and `S_KICK` is kept by log entry 23 (DESIGN CHOICE). -/
def Obligations.StepRunsDecodedInstruction : Prop :=
  ∀ (s : State) (rest : List Act) (i : Instr), s.phase = .run →
    (∀ f, s.sync = .recv → s.script = .recv (.frame f) :: rest → decodeFrame s.cfg f = .ok i →
      step s = exec i { s with script := rest }) ∧
    (∀ w, s.script = .command .host w :: rest → decodeCommand s.cfg .host w = .ok i →
      step s = exec i { s with script := rest }) ∧
    (s.sync = .kick → isBeacon s.cfg s.frm = true → s.script = .beaconCheck :: rest →
      decodeCommand s.cfg .fas (kickWord s.cfg) = .ok i → ∀ u, exec i { s with script := rest } = .next u →
      step s = .next { u with sync := .wait }) ∧
    (s.script = .schedCheck :: rest → decodeCommand s.cfg .scheduler (checkWord s.schIdx) = .ok i →
      ∀ u, exec i { s with script := rest } = .next u →
      step s = .next { u with schIdx := BitVec.ofNat 8 ((u.schIdx.toNat + 1) % u.cfg.nTimers) })

/-- R138 item 1 and R52: the beacon check is reached only with every write of the frame performed. -/
def Obligations.BeaconCheckAfterAllWrites : Prop :=
  ∀ s t : State, s.Inv → s.phase = .run → step s = .next t →
    (t.sync = .kick → t.pend = [] ∧ t.frm = s.frm ∧ (s.sync = .kick ∨ (s.sync = .dispatch ∧ s.pend = []))) ∧
    (t.sync = .recv → s.sync = .wait ∨ s.sync = .recv) ∧
    (t.sync = .dispatch → s.sync = .recv ∨ (s.sync = .dispatch ∧ t.frm = s.frm))

/-- R40 with R34 (log entry 22): the host's read of `PEND` is enabled in the run phase, answers exactly the pending
writes and changes nothing else; no register index and no record field shows `PEND` but as a torn update.
`FRM` outside `S_DISPATCH` and `S_KICK` is kept by log entry 23 (DESIGN CHOICE). -/
def Obligations.PendHasItsOwnStatusRead : Prop :=
  ∀ s : State,
    (s.phase = .run → enabled .pendRead s = true) ∧
    perform .pendRead s = .next { s with reply := some (.pending s.pend) } ∧
    ∀ (q : List (Field × Int)) (n : Nat),
      ({ s with pend := q } : State).readReg n = s.readReg n ∧
      ∀ t, perform (.read n) s = .next t → perform (.read n) { s with pend := q } = .next { t with pend := q }

/-- R7 and R19: in the run phase (log entry 19) the speed module's write is enabled exactly for the values of the
configured `GROUND_SPEED_T`, one of R10's types (log entry 9), and sets `REC[24]` to the value, which a read of index 24
then answers; nothing else changes.
`FRM` outside `S_DISPATCH` and `S_KICK` is kept by log entry 23 (DESIGN CHOICE).
What a reader sees right after a write rests on the spec's decision D45 (sequential consistency per field). -/
def Obligations.GroundSpeedTakesValuesOfItsType : Prop :=
  ∀ (s : State) (v : Int), s.phase = .run →
    (∀ n, s.cfg.groundSpeedT = .u n → (enabled (.setGroundSpeed v) s = true ↔ 0 ≤ v ∧ v ≤ 2 ^ n - 1)) ∧
    (∀ n, 1 ≤ n → s.cfg.groundSpeedT = .s n →
      (enabled (.setGroundSpeed v) s = true ↔ -(2 ^ (n - 1)) ≤ v ∧ v ≤ 2 ^ (n - 1) - 1)) ∧
    (s.cfg.groundSpeedT = .int → enabled (.setGroundSpeed v) s = true) ∧
    ∃ t, perform (.setGroundSpeed v) s = .next t ∧ t = { s with record := { s.record with groundSpeed := v } } ∧
      perform (.read 24) t = .next { t with reply := some (.value v) }

/-- R76 and R133 at the step: in the run phase a scheduled command word that R76 reserves, from any issuer and at every
state, is refused as BadCommand with the reason the command port gives (the reasons' order is R139's; START, STOP and
RESET from FAS or the scheduler are log entry 16), and FAS's one good word, KICK of `ACT_SLOT`, outside its kick step on
a beacon is refused as no step of the block (log entries 11 and 15). -/
def Obligations.ReservedWordsRefusedAtEveryStep : Prop :=
  ∀ (s : State) (by_ : Issuer) (w : BitVec 16) (rest : List Act),
    s.phase = .run → s.script = .command by_ w :: rest →
    ((ReservedCommand s.cfg by_ w ∨ (1 ≤ w.toNat / 4096 ∧ w.toNat / 4096 ≤ 3 ∧ by_ ≠ .host)) →
      ∃ why, step s = .refused (.badCommand why) ∧ command by_ w s = .refused (.badCommand why)) ∧
    (by_ = .fas → ¬ ReservedCommand s.cfg by_ w → 4 ≤ w.toNat / 4096 →
      ¬ (s.sync = .kick ∧ isBeacon s.cfg s.frm = true) → step s = .refused .notEnabled)
end

