-- ==== Sys2Proof/Laws/State.lean ====
section
/-! SUPPORT. One lemma per field of State per named update, true by rfl, so that no later proof unfolds a record update. -/

namespace Sys2Proof.Machine

/-! ### State.emit -/

@[simp] theorem State.emit_phase (s : State) (es : List Event) : (s.emit es).phase = s.phase := rfl
@[simp] theorem State.emit_cfg (s : State) (es : List Event) : (s.emit es).cfg = s.cfg := rfl
@[simp] theorem State.emit_record (s : State) (es : List Event) : (s.emit es).record = s.record := rfl
@[simp] theorem State.emit_tmr (s : State) (es : List Event) : (s.emit es).tmr = s.tmr := rfl
@[simp] theorem State.emit_now (s : State) (es : List Event) : (s.emit es).now = s.now := rfl
@[simp] theorem State.emit_sync (s : State) (es : List Event) : (s.emit es).sync = s.sync := rfl
@[simp] theorem State.emit_frm (s : State) (es : List Event) : (s.emit es).frm = s.frm := rfl
@[simp] theorem State.emit_pend (s : State) (es : List Event) : (s.emit es).pend = s.pend := rfl
@[simp] theorem State.emit_wakeCnt (s : State) (es : List Event) : (s.emit es).wakeCnt = s.wakeCnt := rfl
@[simp] theorem State.emit_schIdx (s : State) (es : List Event) : (s.emit es).schIdx = s.schIdx := rfl
@[simp] theorem State.emit_monEn (s : State) (es : List Event) : (s.emit es).monEn = s.monEn := rfl
@[simp] theorem State.emit_monFilterEn (s : State) (es : List Event) : (s.emit es).monFilterEn = s.monFilterEn := rfl
@[simp] theorem State.emit_monId (s : State) (es : List Event) : (s.emit es).monId = s.monId := rfl
@[simp] theorem State.emit_mode (s : State) (es : List Event) : (s.emit es).mode = s.mode := rfl
@[simp] theorem State.emit_autoUpdate (s : State) (es : List Event) : (s.emit es).autoUpdate = s.autoUpdate := rfl
@[simp] theorem State.emit_evh (s : State) (es : List Event) : (s.emit es).evh = s.evh ++ es := rfl
@[simp] theorem State.emit_script (s : State) (es : List Event) : (s.emit es).script = s.script := rfl
@[simp] theorem State.emit_drawCnt (s : State) (es : List Event) : (s.emit es).drawCnt = s.drawCnt := rfl
@[simp] theorem State.emit_reply (s : State) (es : List Event) : (s.emit es).reply = s.reply := rfl

/-! ### State.setTimer -/

@[simp] theorem State.setTimer_phase (s : State) (k : Nat) (t : Timer) : (s.setTimer k t).phase = s.phase := rfl
@[simp] theorem State.setTimer_cfg (s : State) (k : Nat) (t : Timer) : (s.setTimer k t).cfg = s.cfg := rfl
@[simp] theorem State.setTimer_record (s : State) (k : Nat) (t : Timer) : (s.setTimer k t).record = s.record := rfl
@[simp] theorem State.setTimer_tmr (s : State) (k : Nat) (t : Timer) : (s.setTimer k t).tmr = s.tmr.set k t := rfl
@[simp] theorem State.setTimer_now (s : State) (k : Nat) (t : Timer) : (s.setTimer k t).now = s.now := rfl
@[simp] theorem State.setTimer_sync (s : State) (k : Nat) (t : Timer) : (s.setTimer k t).sync = s.sync := rfl
@[simp] theorem State.setTimer_frm (s : State) (k : Nat) (t : Timer) : (s.setTimer k t).frm = s.frm := rfl
@[simp] theorem State.setTimer_pend (s : State) (k : Nat) (t : Timer) : (s.setTimer k t).pend = s.pend := rfl
@[simp] theorem State.setTimer_wakeCnt (s : State) (k : Nat) (t : Timer) : (s.setTimer k t).wakeCnt = s.wakeCnt := rfl
@[simp] theorem State.setTimer_schIdx (s : State) (k : Nat) (t : Timer) : (s.setTimer k t).schIdx = s.schIdx := rfl
@[simp] theorem State.setTimer_monEn (s : State) (k : Nat) (t : Timer) : (s.setTimer k t).monEn = s.monEn := rfl
@[simp] theorem State.setTimer_monFilterEn (s : State) (k : Nat) (t : Timer) : (s.setTimer k t).monFilterEn = s.monFilterEn := rfl
@[simp] theorem State.setTimer_monId (s : State) (k : Nat) (t : Timer) : (s.setTimer k t).monId = s.monId := rfl
@[simp] theorem State.setTimer_mode (s : State) (k : Nat) (t : Timer) : (s.setTimer k t).mode = s.mode := rfl
@[simp] theorem State.setTimer_autoUpdate (s : State) (k : Nat) (t : Timer) : (s.setTimer k t).autoUpdate = s.autoUpdate := rfl
@[simp] theorem State.setTimer_evh (s : State) (k : Nat) (t : Timer) : (s.setTimer k t).evh = s.evh := rfl
@[simp] theorem State.setTimer_script (s : State) (k : Nat) (t : Timer) : (s.setTimer k t).script = s.script := rfl
@[simp] theorem State.setTimer_drawCnt (s : State) (k : Nat) (t : Timer) : (s.setTimer k t).drawCnt = s.drawCnt := rfl
@[simp] theorem State.setTimer_reply (s : State) (k : Nat) (t : Timer) : (s.setTimer k t).reply = s.reply := rfl

/-! ### State.activityStarted -/

@[simp] theorem State.activityStarted_phase (s : State) : s.activityStarted.phase = s.phase := rfl
@[simp] theorem State.activityStarted_cfg (s : State) : s.activityStarted.cfg = s.cfg := rfl
@[simp] theorem State.activityStarted_record (s : State) : s.activityStarted.record = s.record := rfl
@[simp] theorem State.activityStarted_tmr (s : State) : s.activityStarted.tmr = s.tmr := rfl
@[simp] theorem State.activityStarted_now (s : State) : s.activityStarted.now = s.now := rfl
@[simp] theorem State.activityStarted_sync (s : State) : s.activityStarted.sync = s.sync := rfl
@[simp] theorem State.activityStarted_frm (s : State) : s.activityStarted.frm = s.frm := rfl
@[simp] theorem State.activityStarted_pend (s : State) : s.activityStarted.pend = s.pend := rfl
@[simp] theorem State.activityStarted_wakeCnt (s : State) : s.activityStarted.wakeCnt = s.wakeCnt := rfl
@[simp] theorem State.activityStarted_schIdx (s : State) : s.activityStarted.schIdx = s.schIdx := rfl
@[simp] theorem State.activityStarted_monEn (s : State) : s.activityStarted.monEn = s.monEn := rfl
@[simp] theorem State.activityStarted_monFilterEn (s : State) : s.activityStarted.monFilterEn = s.monFilterEn := rfl
@[simp] theorem State.activityStarted_monId (s : State) : s.activityStarted.monId = s.monId := rfl
@[simp] theorem State.activityStarted_mode (s : State) : s.activityStarted.mode = .ready := rfl
@[simp] theorem State.activityStarted_autoUpdate (s : State) : s.activityStarted.autoUpdate = true := rfl
@[simp] theorem State.activityStarted_evh (s : State) : s.activityStarted.evh = s.evh ++ [.activityStarted, .modeSet .ready, .autoUpdate true, .gaugeStandby false] := rfl
@[simp] theorem State.activityStarted_script (s : State) : s.activityStarted.script = s.script := rfl
@[simp] theorem State.activityStarted_drawCnt (s : State) : s.activityStarted.drawCnt = s.drawCnt := rfl
@[simp] theorem State.activityStarted_reply (s : State) : s.activityStarted.reply = s.reply := rfl

/-! ### State.activityStopped -/

@[simp] theorem State.activityStopped_phase (s : State) : s.activityStopped.phase = s.phase := rfl
@[simp] theorem State.activityStopped_cfg (s : State) : s.activityStopped.cfg = s.cfg := rfl
@[simp] theorem State.activityStopped_record (s : State) : s.activityStopped.record = s.record := rfl
@[simp] theorem State.activityStopped_tmr (s : State) : s.activityStopped.tmr = s.tmr := rfl
@[simp] theorem State.activityStopped_now (s : State) : s.activityStopped.now = s.now := rfl
@[simp] theorem State.activityStopped_sync (s : State) : s.activityStopped.sync = s.sync := rfl
@[simp] theorem State.activityStopped_frm (s : State) : s.activityStopped.frm = s.frm := rfl
@[simp] theorem State.activityStopped_pend (s : State) : s.activityStopped.pend = s.pend := rfl
@[simp] theorem State.activityStopped_wakeCnt (s : State) : s.activityStopped.wakeCnt = s.wakeCnt := rfl
@[simp] theorem State.activityStopped_schIdx (s : State) : s.activityStopped.schIdx = s.schIdx := rfl
@[simp] theorem State.activityStopped_monEn (s : State) : s.activityStopped.monEn = s.monEn := rfl
@[simp] theorem State.activityStopped_monFilterEn (s : State) : s.activityStopped.monFilterEn = s.monFilterEn := rfl
@[simp] theorem State.activityStopped_monId (s : State) : s.activityStopped.monId = s.monId := rfl
@[simp] theorem State.activityStopped_mode (s : State) : s.activityStopped.mode = .idle := rfl
@[simp] theorem State.activityStopped_autoUpdate (s : State) : s.activityStopped.autoUpdate = false := rfl
@[simp] theorem State.activityStopped_evh (s : State) : s.activityStopped.evh = s.evh ++ stoppedEvents s.cfg.gaugeRestOnStop := rfl
@[simp] theorem State.activityStopped_script (s : State) : s.activityStopped.script = s.script := rfl
@[simp] theorem State.activityStopped_drawCnt (s : State) : s.activityStopped.drawCnt = s.drawCnt := rfl
@[simp] theorem State.activityStopped_reply (s : State) : s.activityStopped.reply = s.reply := rfl

/-! ### State.enterDispatch -/

@[simp] theorem State.enterDispatch_phase (s : State) (f : Frame) (r : Rule) (o : DispOutcome) (w : List (Field × Int)) : (s.enterDispatch f r o w).phase = s.phase := rfl
@[simp] theorem State.enterDispatch_cfg (s : State) (f : Frame) (r : Rule) (o : DispOutcome) (w : List (Field × Int)) : (s.enterDispatch f r o w).cfg = s.cfg := rfl
@[simp] theorem State.enterDispatch_record (s : State) (f : Frame) (r : Rule) (o : DispOutcome) (w : List (Field × Int)) : (s.enterDispatch f r o w).record = s.record := rfl
@[simp] theorem State.enterDispatch_tmr (s : State) (f : Frame) (r : Rule) (o : DispOutcome) (w : List (Field × Int)) : (s.enterDispatch f r o w).tmr = s.tmr := rfl
@[simp] theorem State.enterDispatch_now (s : State) (f : Frame) (r : Rule) (o : DispOutcome) (w : List (Field × Int)) : (s.enterDispatch f r o w).now = s.now := rfl
@[simp] theorem State.enterDispatch_sync (s : State) (f : Frame) (r : Rule) (o : DispOutcome) (w : List (Field × Int)) : (s.enterDispatch f r o w).sync = .dispatch := rfl
@[simp] theorem State.enterDispatch_frm (s : State) (f : Frame) (r : Rule) (o : DispOutcome) (w : List (Field × Int)) : (s.enterDispatch f r o w).frm = f := rfl
@[simp] theorem State.enterDispatch_pend (s : State) (f : Frame) (r : Rule) (o : DispOutcome) (w : List (Field × Int)) : (s.enterDispatch f r o w).pend = w := rfl
@[simp] theorem State.enterDispatch_wakeCnt (s : State) (f : Frame) (r : Rule) (o : DispOutcome) (w : List (Field × Int)) : (s.enterDispatch f r o w).wakeCnt = s.wakeCnt := rfl
@[simp] theorem State.enterDispatch_schIdx (s : State) (f : Frame) (r : Rule) (o : DispOutcome) (w : List (Field × Int)) : (s.enterDispatch f r o w).schIdx = s.schIdx := rfl
@[simp] theorem State.enterDispatch_monEn (s : State) (f : Frame) (r : Rule) (o : DispOutcome) (w : List (Field × Int)) : (s.enterDispatch f r o w).monEn = s.monEn := rfl
@[simp] theorem State.enterDispatch_monFilterEn (s : State) (f : Frame) (r : Rule) (o : DispOutcome) (w : List (Field × Int)) : (s.enterDispatch f r o w).monFilterEn = s.monFilterEn := rfl
@[simp] theorem State.enterDispatch_monId (s : State) (f : Frame) (r : Rule) (o : DispOutcome) (w : List (Field × Int)) : (s.enterDispatch f r o w).monId = s.monId := rfl
@[simp] theorem State.enterDispatch_mode (s : State) (f : Frame) (r : Rule) (o : DispOutcome) (w : List (Field × Int)) : (s.enterDispatch f r o w).mode = s.mode := rfl
@[simp] theorem State.enterDispatch_autoUpdate (s : State) (f : Frame) (r : Rule) (o : DispOutcome) (w : List (Field × Int)) : (s.enterDispatch f r o w).autoUpdate = s.autoUpdate := rfl
@[simp] theorem State.enterDispatch_evh (s : State) (f : Frame) (r : Rule) (o : DispOutcome) (w : List (Field × Int)) : (s.enterDispatch f r o w).evh = s.evh ++ s.echoEvents f r o := rfl
@[simp] theorem State.enterDispatch_script (s : State) (f : Frame) (r : Rule) (o : DispOutcome) (w : List (Field × Int)) : (s.enterDispatch f r o w).script = s.script := rfl
@[simp] theorem State.enterDispatch_drawCnt (s : State) (f : Frame) (r : Rule) (o : DispOutcome) (w : List (Field × Int)) : (s.enterDispatch f r o w).drawCnt = s.drawCnt := rfl
@[simp] theorem State.enterDispatch_reply (s : State) (f : Frame) (r : Rule) (o : DispOutcome) (w : List (Field × Int)) : (s.enterDispatch f r o w).reply = s.reply := rfl

/-! ### State.configured -/

@[simp] theorem State.configured_phase (s : State) (p : Params) : (s.configured p).phase = .setup := rfl
@[simp] theorem State.configured_cfg (s : State) (p : Params) : (s.configured p).cfg = p := rfl
@[simp] theorem State.configured_record (s : State) (p : Params) : (s.configured p).record = s.record := rfl
@[simp] theorem State.configured_tmr (s : State) (p : Params) : (s.configured p).tmr = p.tmrInit.map TimerInit.slot := rfl
@[simp] theorem State.configured_now (s : State) (p : Params) : (s.configured p).now = s.now := rfl
@[simp] theorem State.configured_sync (s : State) (p : Params) : (s.configured p).sync = s.sync := rfl
@[simp] theorem State.configured_frm (s : State) (p : Params) : (s.configured p).frm = s.frm := rfl
@[simp] theorem State.configured_pend (s : State) (p : Params) : (s.configured p).pend = s.pend := rfl
@[simp] theorem State.configured_wakeCnt (s : State) (p : Params) : (s.configured p).wakeCnt = s.wakeCnt := rfl
@[simp] theorem State.configured_schIdx (s : State) (p : Params) : (s.configured p).schIdx = s.schIdx := rfl
@[simp] theorem State.configured_monEn (s : State) (p : Params) : (s.configured p).monEn = s.monEn := rfl
@[simp] theorem State.configured_monFilterEn (s : State) (p : Params) : (s.configured p).monFilterEn = s.monFilterEn := rfl
@[simp] theorem State.configured_monId (s : State) (p : Params) : (s.configured p).monId = s.monId := rfl
@[simp] theorem State.configured_mode (s : State) (p : Params) : (s.configured p).mode = s.mode := rfl
@[simp] theorem State.configured_autoUpdate (s : State) (p : Params) : (s.configured p).autoUpdate = s.autoUpdate := rfl
@[simp] theorem State.configured_evh (s : State) (p : Params) : (s.configured p).evh = s.evh := rfl
@[simp] theorem State.configured_script (s : State) (p : Params) : (s.configured p).script = s.script := rfl
@[simp] theorem State.configured_drawCnt (s : State) (p : Params) : (s.configured p).drawCnt = s.drawCnt := rfl
@[simp] theorem State.configured_reply (s : State) (p : Params) : (s.configured p).reply = s.reply := rfl

/-! ### State.advance -/

@[simp] theorem State.advance_phase (s : State) : s.advance.phase = s.phase := rfl
@[simp] theorem State.advance_cfg (s : State) : s.advance.cfg = s.cfg := rfl
@[simp] theorem State.advance_record (s : State) : s.advance.record = s.record := rfl
@[simp] theorem State.advance_tmr (s : State) : s.advance.tmr = s.tmr := rfl
@[simp] theorem State.advance_now (s : State) : s.advance.now = s.now := rfl
@[simp] theorem State.advance_sync (s : State) : s.advance.sync = s.sync := rfl
@[simp] theorem State.advance_frm (s : State) : s.advance.frm = s.frm := rfl
@[simp] theorem State.advance_pend (s : State) : s.advance.pend = s.pend := rfl
@[simp] theorem State.advance_wakeCnt (s : State) : s.advance.wakeCnt = s.wakeCnt := rfl
@[simp] theorem State.advance_schIdx (s : State) : s.advance.schIdx = BitVec.ofNat 8 ((s.schIdx.toNat + 1) % s.cfg.nTimers) := rfl
@[simp] theorem State.advance_monEn (s : State) : s.advance.monEn = s.monEn := rfl
@[simp] theorem State.advance_monFilterEn (s : State) : s.advance.monFilterEn = s.monFilterEn := rfl
@[simp] theorem State.advance_monId (s : State) : s.advance.monId = s.monId := rfl
@[simp] theorem State.advance_mode (s : State) : s.advance.mode = s.mode := rfl
@[simp] theorem State.advance_autoUpdate (s : State) : s.advance.autoUpdate = s.autoUpdate := rfl
@[simp] theorem State.advance_evh (s : State) : s.advance.evh = s.evh := rfl
@[simp] theorem State.advance_script (s : State) : s.advance.script = s.script := rfl
@[simp] theorem State.advance_drawCnt (s : State) : s.advance.drawCnt = s.drawCnt := rfl
@[simp] theorem State.advance_reply (s : State) : s.advance.reply = s.reply := rfl

end Sys2Proof.Machine
end

