-- ==== Sys2Proof/Laws/Ops.lean ====
section
/-! SUPPORT. What each shared operation can do, said once: if it answers a next state, then one of these cases holds. -/

namespace Sys2Proof.Machine

theorem receiveFrame_ok {r : Rule} {f : Frame} {o : DispOutcome} {w : List (Field × Int)} {s : State}
    (h : w.all (fun x => fieldFits x.1 x.2) = true) :
    receiveFrame r f (.ok (o, w)) s = .next (s.enterDispatch f r o w) := by
  simp only [receiveFrame, h, if_true]

theorem receiveFrame_next {r : Rule} {f : Frame} {res : RuleResult} {s t : State}
    (h : receiveFrame r f res s = .next t) :
    ∃ o w, res = .ok (o, w) ∧ w.all (fun x => fieldFits x.1 x.2) = true ∧ t = s.enterDispatch f r o w := by
  unfold receiveFrame at h
  split at h
  · cases h
  · rename_i o w
    split at h
    · cases h; exact ⟨o, w, rfl, ‹_›, rfl⟩
    · cases h

theorem withSlot_some {k : BitVec 8} {s : State} {body : Timer → Result} {t : Timer}
    (h : s.tmr[k.toNat]? = some t) : withSlot k s body = body t := by
  simp [withSlot, h]

theorem ownerCommand_next {k : BitVec 8} {s t : State} {u : Timer → Timer} (h : ownerCommand k s u = .next t) :
    ∃ x, s.tmr[k.toNat]? = some x ∧ k.toNat ≠ s.cfg.actSlot ∧ t = s.setTimer k.toNat (u x) := by
  unfold ownerCommand withSlot at h
  split at h
  · rename_i x hx
    dsimp only at h
    split at h
    · cases h
    · cases h; exact ⟨x, hx, ‹_›, rfl⟩
  · cases h

theorem execKick_next {k : BitVec 8} {s t : State} (h : execKick k s = .next t) :
    ∃ x, s.tmr[k.toNat]? = some x ∧ k.toNat = s.cfg.actSlot ∧
      ((x.running = true ∧ t = s.setTimer k.toNat { x with lastReset := s.now }) ∨
        (x.running = false ∧
          t = (s.setTimer k.toNat { x with running := true, lastReset := s.now }).activityStarted)) := by
  unfold execKick withSlot at h
  split at h
  · rename_i x hx
    dsimp only at h
    split at h
    · cases h
    · rename_i hk
      split at h
      · cases h; exact ⟨x, hx, not_not.mp hk, .inl ⟨‹_›, rfl⟩⟩
      · rename_i hr; cases h; exact ⟨x, hx, not_not.mp hk, .inr ⟨by simpa using hr, rfl⟩⟩
  · cases h

theorem execCheck_next {k : BitVec 8} {s t : State} (h : execCheck k s = .next t) :
    ∃ x, s.tmr[k.toNat]? = some x ∧
      ((expired s.now x = true ∧ t = (s.callback k x.cb).setTimer k.toNat (afterExpiry s.now x)) ∨
        (expired s.now x = false ∧ t = s)) := by
  unfold execCheck withSlot at h
  split at h
  · rename_i x hx
    dsimp only at h
    split at h
    · cases h; exact ⟨x, hx, .inl ⟨‹_›, rfl⟩⟩
    · rename_i hr; cases h; exact ⟨x, hx, .inr ⟨by simpa using hr, rfl⟩⟩
  · cases h

/-- A callback writes the two sink variables and the event history, and nothing else (R109). -/
theorem State.callback_cases (s : State) (k : BitVec 8) (cb : BitVec 4) :
    (cb = Config.cbActivityStopped ∧ s.callback k cb = s.activityStopped) ∨
      (cb ≠ Config.cbActivityStopped ∧ s.callback k cb = s.emit [.timerExpired k cb]) := by
  by_cases h : cb = Config.cbActivityStopped
  · exact .inl ⟨h, by simp [State.callback, h]⟩
  · refine .inr ⟨h, ?_⟩
    by_cases h0 : cb = Config.cbNone
    · subst h0; simp [State.callback, Config.cbNone, Config.cbActivityStopped]
    · simp [State.callback, h, h0]

end Sys2Proof.Machine
end

