-- ==== Sys2Proof/Laws/Agents.lean ====
section
/-! SUPPORT. The step and the command port: what a step does with a schedule and without one, and what a command word
that decodes does. -/

namespace Sys2Proof.Machine

theorem step_scheduled {s : State} {a : Act} {rest : List Act} (h : s.script = a :: rest) :
    step s = takeAct a { s with script := rest } := by
  simp only [step, stepOnce, h]

theorem step_unscheduled {s : State} (h : s.script = []) :
    step s = takeDraw (Config.drawAct s.drawCnt) { s with drawCnt := s.drawCnt + 1 } := by
  simp only [step, stepOnce, h]

theorem takeAct_enabled {a : Act} {s : State} (h : enabled a s = true) : takeAct a s = perform a s := by
  simp [takeAct, h]

/-- What is not taken ends in a refusal or as it otherwise would. -/
theorem notTaken_cases (a : Act) (s : State) (r : Result) :
    (∃ e, wordRefusal a s = some e ∧ notTaken a s r = .refused e) ∨ (wordRefusal a s = none ∧ notTaken a s r = r) := by
  unfold notTaken
  cases wordRefusal a s with
  | none => exact .inr ⟨rfl, rfl⟩
  | some e => exact .inl ⟨e, rfl, rfl⟩

theorem notTaken_next {a : Act} {s t : State} {r : Result} (h : notTaken a s r = .next t) : r = .next t := by
  rcases notTaken_cases a s r with ⟨e, -, he⟩ | ⟨-, he⟩ <;> rw [he] at h
  · cases h
  · exact h

/-- The steps that are no command have no word to refuse. -/
theorem wordRefusal_eq_some {a : Act} {s : State} {r : Refusal} (h : wordRefusal a s = some r) :
    ∃ by_ w e, a = .command by_ w ∧ s.phase = .run ∧ decodeCommand s.cfg by_ w = .error e ∧ r = decodeRefusal e := by
  unfold wordRefusal at h
  split at h
  · split at h
    · cases h; exact ⟨_, _, _, rfl, ‹_›, ‹_›, rfl⟩
    · cases h
  · cases h

/-- In the run phase a word that does not decode is refused for its own reason whoever gives it, at every state. -/
theorem takeAct_command_error {by_ : Issuer} {w : BitVec 16} {s : State} {e : DecodeError} (hr : s.phase = .run)
    (hd : decodeCommand s.cfg by_ w = .error e) : takeAct (.command by_ w) s = .refused (decodeRefusal e) := by
  unfold takeAct
  split
  · cases by_ <;> simp [perform, command, fasCommand, schedCommand, issue, andThen, hd]
  · simp [notTaken, wordRefusal, hr, hd]

theorem takeAct_next {a : Act} {s t : State} (h : takeAct a s = .next t) : enabled a s = true ∧ perform a s = .next t := by
  unfold takeAct at h
  split at h
  · exact ⟨‹_›, h⟩
  · cases notTaken_next h

theorem takeDraw_next {a : Act} {s t : State} (h : takeDraw a s = .next t) :
    (enabled a s = true ∧ perform a s = .next t) ∨ t = s := by
  unfold takeDraw at h
  split at h
  · exact .inl ⟨‹_›, h⟩
  · cases notTaken_next h; exact .inr rfl

/-- What any step is: one enabled step of one agent, or a free choice passed over. -/
theorem step_cases {s t : State} (h : step s = .next t) :
    (∃ a rest, s.script = a :: rest ∧ enabled a { s with script := rest } = true ∧
        perform a { s with script := rest } = .next t) ∨
      (s.script = [] ∧ ∃ a, enabled a { s with drawCnt := s.drawCnt + 1 } = true ∧
        perform a { s with drawCnt := s.drawCnt + 1 } = .next t) ∨
      (s.script = [] ∧ t = { s with drawCnt := s.drawCnt + 1 }) := by
  by_cases hs : s.script = []
  · rw [step_unscheduled hs] at h
    rcases takeDraw_next h with h | h
    · exact .inr (.inl ⟨hs, _, h⟩)
    · exact .inr (.inr ⟨hs, h⟩)
  · obtain ⟨a, rest, hs⟩ := List.exists_cons_of_ne_nil hs
    rw [step_scheduled hs] at h
    exact .inl ⟨a, rest, hs, takeAct_next h⟩

theorem andThen_next {r : Result} {k : State → State} {t : State} (h : andThen r k = .next t) :
    ∃ u, r = .next u ∧ t = k u := by
  unfold andThen at h
  split at h
  · cases h; exact ⟨_, rfl, rfl⟩
  · cases h
  · cases h

theorem issue_next {by_ : Issuer} {w : BitVec 16} {s t : State} (h : issue by_ w s = .next t) :
    ∃ i, decodeCommand s.cfg by_ w = .ok i ∧ exec i s = .next t := by
  unfold issue at h
  split at h
  · exact ⟨_, ‹_›, h⟩
  · cases h

theorem schedCommand_next {w : BitVec 16} {s t : State} (h : schedCommand w s = .next t) :
    ∃ i u, decodeCommand s.cfg .scheduler w = .ok i ∧ w = checkWord s.schIdx ∧ exec i s = .next u ∧
      t = u.advance := by
  unfold schedCommand at h
  split at h
  · split at h
    · obtain ⟨u, hu, ht⟩ := andThen_next h
      exact ⟨_, u, ‹_›, ‹_›, hu, ht⟩
    · cases h
  · cases h

end Sys2Proof.Machine
end

