-- ==== Sys2Proof/Laws/Operands.lean ====
section
/-! SUPPORT. The extractors: where they give a value, and how large it can be (R70, R82). -/

namespace Sys2Proof.Machine

theorem payloadByte_isSome {d : Payload} {i : Nat} (h : i < 8) : ∃ b, payloadByte d i = some b := by
  match i, h with
  | 0, _ => exact ⟨_, rfl⟩
  | 1, _ => exact ⟨_, rfl⟩
  | 2, _ => exact ⟨_, rfl⟩
  | 3, _ => exact ⟨_, rfl⟩
  | 4, _ => exact ⟨_, rfl⟩
  | 5, _ => exact ⟨_, rfl⟩
  | 6, _ => exact ⟨_, rfl⟩
  | 7, _ => exact ⟨_, rfl⟩

/-- Every list of indices in 0..7 gives a raw value below `2^(8n)`. -/
theorem rawValue_spec {d : Payload} {os : List Nat} (h : ∀ o ∈ os, o < 8) :
    ∃ r, rawValue d os = some r ∧ r < 2 ^ (8 * os.length) := by
  induction os with
  | nil => exact ⟨0, rfl, by simp⟩
  | cons o os ih =>
    obtain ⟨b, hb⟩ := payloadByte_isSome (d := d) (h o (by simp))
    obtain ⟨r, hr, hlt⟩ := ih (fun x hx => h x (by simp [hx]))
    refine ⟨b.toNat * 2 ^ (8 * os.length) + r, by simp [rawValue, hb, hr], ?_⟩
    have hb8 : b.toNat < 256 := b.isLt
    have hpow : 2 ^ (8 * (o :: os).length) = 256 * 2 ^ (8 * os.length) := by
      rw [List.length_cons, Nat.mul_add, Nat.pow_add]; ring
    rw [hpow]
    nlinarith

/-- A signed reading of an `n`-bit raw value lies in the signed `n`-bit range. -/
theorem sextRaw_bounds {n raw : Nat} (hn : 0 < n) (h : raw < 2 ^ n) :
    -(2 ^ (n - 1) : Int) ≤ sextRaw n raw ∧ sextRaw n raw < 2 ^ (n - 1) := by
  obtain ⟨m, rfl⟩ : ∃ m, n = m + 1 := ⟨n - 1, by omega⟩
  unfold sextRaw
  simp only [Nat.add_sub_cancel, pow_succ] at *
  have hi : (raw : Int) < 2 ^ m * 2 := by exact_mod_cast h
  by_cases hc : 2 ^ m * 2 ≤ 2 * raw
  · have hci : (2 ^ m * 2 : Int) ≤ 2 * raw := by exact_mod_cast hc
    rw [if_pos hc]
    constructor <;> linarith
  · have hci : (2 * raw : Int) < 2 ^ m * 2 := by exact_mod_cast (not_le.mp hc)
    rw [if_neg hc]
    have : (0 : Int) ≤ raw := by positivity
    have : (0 : Int) ≤ 2 ^ m := by positivity
    constructor <;> linarith

/-- An unsigned extractor's value: the raw value less the bias. -/
theorem extract_unsigned {d : Payload} {f : Field} {os : List Nat} {bias : Int} (h : ∀ o ∈ os, o < 8) :
    ∃ r : Nat, extract ⟨f, os, false, bias⟩ d = some ((r : Int) - bias) ∧ r < 2 ^ (8 * os.length) := by
  obtain ⟨r, hr, hlt⟩ := rawValue_spec (d := d) h
  exact ⟨r, by simp [extract, hr], hlt⟩

/-- A signed extractor's value: the signed raw value less the bias. -/
theorem extract_signed {d : Payload} {f : Field} {os : List Nat} {bias : Int} (h : ∀ o ∈ os, o < 8) :
    ∃ r : Nat, extract ⟨f, os, true, bias⟩ d = some (sextRaw (8 * os.length) r - bias) ∧
      r < 2 ^ (8 * os.length) := by
  obtain ⟨r, hr, hlt⟩ := rawValue_spec (d := d) h
  exact ⟨r, by simp [extract, hr], hlt⟩

/-- One well-formed layout list: its length and its indices. -/
theorem layoutListOk_spec {os : List Nat} {n : Nat} (h : layoutListOk (os, n) = true) :
    os.length = n ∧ (∀ o ∈ os, o < 8) ∧ os.Nodup := by
  simp only [layoutListOk, Bool.and_eq_true, beq_iff_eq, List.all_eq_true, decide_eq_true_eq] at h
  exact ⟨h.1.1, h.1.2, h.2⟩

end Sys2Proof.Machine
end

