-- ==== Sys2Proof/Laws/Words.lean ====
section
/-! SUPPORT. Words and byte images as numbers, and the two ports' images: the bytes of a frame or of a command word
give it back. -/

namespace Sys2Proof

theorem append_toNat_8_8 (a b : BitVec 8) : (a ++ b : BitVec 16).toNat = a.toNat * 256 + b.toNat := by
  have h := BitVec.toNat_append a b
  rw [← Nat.shiftLeft_add_eq_or_of_lt b.isLt, Nat.shiftLeft_eq] at h
  exact h

theorem append_toNat_16_16 (a b : BitVec 16) : (a ++ b : BitVec 32).toNat = a.toNat * 65536 + b.toNat := by
  have h := BitVec.toNat_append a b
  rw [← Nat.shiftLeft_add_eq_or_of_lt b.isLt, Nat.shiftLeft_eq] at h
  exact h

theorem append_toNat_bytes (a b c d : BitVec 8) :
    (a ++ b ++ c ++ d : BitVec 32).toNat = ((a.toNat * 256 + b.toNat) * 256 + c.toNat) * 256 + d.toNat := by
  have h3 := BitVec.toNat_append (a ++ b ++ c) d
  have h2 := BitVec.toNat_append (a ++ b) c
  have h1 := BitVec.toNat_append a b
  rw [← Nat.shiftLeft_add_eq_or_of_lt (BitVec.isLt _), Nat.shiftLeft_eq] at h1 h2 h3
  rw [h2, h1] at h3
  exact h3

@[simp] theorem cmdOp_toNat (w : BitVec 16) : (cmdOp w).toNat = w.toNat / 4096 := by
  have := w.isLt
  simp only [cmdOp, BitVec.extractLsb'_toNat, Nat.shiftRight_eq_div_pow]
  omega

@[simp] theorem cmdRsv_toNat (w : BitVec 16) : (cmdRsv w).toNat = w.toNat / 256 % 16 := by
  simp only [cmdRsv, BitVec.extractLsb'_toNat, Nat.shiftRight_eq_div_pow]

@[simp] theorem cmdSlot_toNat (w : BitVec 16) : (cmdSlot w).toNat = w.toNat % 256 := by
  simp only [cmdSlot, BitVec.extractLsb'_toNat, Nat.shiftRight_eq_div_pow]
  omega

/-- The family key is the prefix above the sub-address (R64, R66). -/
theorem familyKey_toNat (p : Params) (sub : BitVec 16) :
    (familyKey p sub).toNat = p.bmsPrefix.toNat * 65536 + sub.toNat := append_toNat_16_16 _ _

/-- The image of a frame gives the frame back. -/
theorem frameOfBytes_frameBytes (f : Frame) : frameOfBytes (frameBytes f) = some f := by
  obtain ⟨id, ide, dlc, d⟩ := f
  have hid : (id.extractLsb' 24 8 ++ id.extractLsb' 16 8 ++ id.extractLsb' 8 8 ++ id.extractLsb' 0 8 : BitVec 32) = id := by
    apply BitVec.eq_of_toNat_eq
    rw [append_toNat_bytes]
    have := id.isLt
    simp only [BitVec.extractLsb'_toNat, Nat.shiftRight_eq_div_pow]
    omega
  have hide : (0#3 ++ BitVec.ofBool ide ++ dlc : BitVec 8).getLsbD 4 = ide := by
    have h := BitVec.getLsbD_append (x := 0#3 ++ BitVec.ofBool ide) (y := dlc) (i := 4)
    have h' := BitVec.getLsbD_append (x := 0#3) (y := BitVec.ofBool ide) (i := 0)
    rw [if_neg (by omega)] at h
    rw [if_pos (by omega)] at h'
    exact h.trans (h'.trans (by cases ide <;> rfl))
  have hdlc : (0#3 ++ BitVec.ofBool ide ++ dlc : BitVec 8).extractLsb' 0 4 = dlc := by
    apply BitVec.eq_of_getLsbD_eq
    intro i hi
    have h := BitVec.getLsbD_append (x := 0#3 ++ BitVec.ofBool ide) (y := dlc) (i := i)
    rw [if_pos hi] at h
    simp only [BitVec.getLsbD_extractLsb', hi, decide_true, Bool.true_and, Nat.zero_add]
    exact h
  simp only [frameBytes, frameOfBytes, hid, hide, hdlc]

/-- The image of a command word gives the word back. -/
theorem commandOfBytes_commandBytes (w : BitVec 16) : commandOfBytes (commandBytes w) = some w := by
  have hw : (w.extractLsb' 8 8 ++ w.extractLsb' 0 8 : BitVec 16) = w := by
    apply BitVec.eq_of_toNat_eq
    rw [append_toNat_8_8]
    have := w.isLt
    simp only [BitVec.extractLsb'_toNat, Nat.shiftRight_eq_div_pow]
    omega
  simp only [commandBytes, commandOfBytes, hw]

end Sys2Proof
end

