-- ==== Sys2Proof/Laws/Exec.lean ====
section
/-! SUPPORT. `exec` arm by arm, a decode rule as a receive of its frame, and the small facts that join the meanings'
words to the statements'. -/

namespace Sys2Proof.Machine

@[simp] theorem exec_drMotor (b : FrameBody) (s : State) :
    exec (.drMotor b) s = receiveFrame .motor (b.withId Config.motorId) (motorRule b.data) s := rfl
@[simp] theorem exec_drPuflags (b : FrameBody) (s : State) :
    exec (.drPuflags b) s = receiveFrame .puflags (b.withId Config.beaconId) (puflagsRule b.data) s := rfl
@[simp] theorem exec_drBms0 (b : FrameBody) (s : State) :
    exec (.drBms0 b) s = receiveFrame .bms0 (b.withId (familyKey s.cfg 0x0000#16)) (bms0Rule s.cfg b.data) s := rfl
@[simp] theorem exec_drBms2 (b : FrameBody) (s : State) :
    exec (.drBms2 b) s = receiveFrame .bms2 (b.withId (familyKey s.cfg 0x0002#16)) (bms2Rule s.cfg b.data) s := rfl
@[simp] theorem exec_drBms7 (b : FrameBody) (s : State) :
    exec (.drBms7 b) s = receiveFrame .bms7 (b.withId (familyKey s.cfg 0x0007#16)) (bms7Rule s.cfg b.data) s := rfl
@[simp] theorem exec_drBms8 (b : FrameBody) (s : State) :
    exec (.drBms8 b) s = receiveFrame .bms8 (b.withId (familyKey s.cfg 0x0008#16)) (bms8Rule s.cfg b.data) s := rfl
@[simp] theorem exec_drBms500 (b : FrameBody) (s : State) :
    exec (.drBms500 b) s = receiveFrame .bms500 (b.withId (familyKey s.cfg 0x0500#16)) (bms500Rule s.cfg b.data) s := rfl
@[simp] theorem exec_drIgnore (id : BitVec 32) (b : FrameBody) (s : State) :
    exec (.drIgnore id b) s = receiveFrame .ignore (b.withId id) (.ok (.ignored, [])) s := rfl
@[simp] theorem exec_start (k : BitVec 8) (s : State) : exec (.start k) s = execStart k s := rfl
@[simp] theorem exec_stop (k : BitVec 8) (s : State) : exec (.stop k) s = execStop k s := rfl
@[simp] theorem exec_reset (k : BitVec 8) (s : State) : exec (.reset k) s = execReset k s := rfl
@[simp] theorem exec_kick (k : BitVec 8) (s : State) : exec (.kick k) s = execKick k s := rfl
@[simp] theorem exec_check (k : BitVec 8) (s : State) : exec (.check k) s = execCheck k s := rfl

/-- The echo of Ops.lean and that of Safety.lean are one (R121). -/
theorem echoEvents_eq (s : State) (f : Frame) (r : Rule) (o : DispOutcome) : s.echoEvents f r o = echoOf s f r o := by
  have hid : f.id = s.monId.setWidth 32 ↔ f.id.toNat = s.monId.toNat := by
    constructor
    · intro h; rw [h]; simp; omega
    · intro h; apply BitVec.eq_of_toNat_eq; rw [h]; simp; omega
  simp [State.echoEvents, echoOf, State.monitorPasses, hid]

theorem enterDispatch_eq (s : State) (f : Frame) (r : Rule) (o : DispOutcome) (w : List (Field × Int)) :
    s.enterDispatch f r o w = s.dispatching f r o w := by
  unfold State.enterDispatch State.dispatching; rw [echoEvents_eq]

/-- The sentinel test is R85's existential. -/
theorem hasSentinel_iff (d : Payload) : hasSentinel d = true ↔ SentinelIn d := by
  have hb : ∀ x : Byte, (x == 0xFF#8) = true ↔ x.toNat = 0xFF := by
    intro x
    simp only [beq_iff_eq]
    exact ⟨fun h => by rw [h]; rfl, fun h => BitVec.eq_of_toNat_eq h⟩
  unfold SentinelIn hasSentinel byteAt payloadBytes Config.sentinel
  simp only [List.any_cons, List.any_nil, Bool.or_eq_true, hb, Bool.false_eq_true, or_false]
  constructor
  · rintro (h | h | h | h | h | h | h | h)
    exacts [⟨0, by omega, h⟩, ⟨1, by omega, h⟩, ⟨2, by omega, h⟩, ⟨3, by omega, h⟩, ⟨4, by omega, h⟩, ⟨5, by omega, h⟩,
      ⟨6, by omega, h⟩, ⟨7, by omega, h⟩]
  · rintro ⟨i, hi, h⟩
    interval_cases i <;> simp at h <;> simp [h]

theorem le16_toNat (lo hi : Byte) : (le16 lo hi).toNat = lo.toNat + 256 * hi.toNat := by
  have h := append_toNat_8_8 hi lo
  unfold le16; omega

theorem sext16_le16 (lo hi : Byte) : sext16 (le16 lo hi) = signed16 (lo.toNat + 256 * hi.toNat) := by
  have h := append_toNat_8_8 hi lo
  have := lo.isLt
  have := hi.isLt
  unfold sext16 le16 signed16
  rw [BitVec.toInt_eq_toNat_cond]
  split <;> split <;> omega

theorem byteAt_eq {d : Payload} {o : Nat} {b : Byte} (h : payloadByte d o = some b) : byteAt d o = b.toNat := by
  unfold payloadByte at h
  split at h <;> simp at h <;> subst h <;> rfl

/-- Horner's rule and the sum of R70 give one number. -/
theorem beValue_of_rawValue {d : Payload} {os : List Nat} {r : Nat} (h : rawValue d os = some r) : beValue d os = r := by
  have horner : ∀ (os : List Nat) (acc r : Nat), rawValue d os = some r →
      os.foldl (fun acc o => acc * 256 + byteAt d o) acc = acc * 2 ^ (8 * os.length) + r := by
    intro os
    induction os with
    | nil => intro acc r h; simp [rawValue] at h; subst h; simp
    | cons o os ih =>
      intro acc r h
      unfold rawValue at h
      split at h
      · rename_i b r' hb hr
        injection h with h; subst h
        rw [List.foldl_cons, ih _ _ hr, byteAt_eq hb, List.length_cons, Nat.mul_add, Nat.pow_add]
        ring
      · cases h
  unfold beValue
  rw [horner os 0 r h]; simp

/-- An unsigned extractor over a well-formed list, with the bound on its raw value. -/
theorem extract_unsigned_list {d : Payload} {f : Field} {os : List Nat} {bias : Int} {n : Nat}
    (h : layoutListOk (os, n) = true) :
    extract ⟨f, os, false, bias⟩ d = some ((beValue d os : Int) - bias) ∧ beValue d os < 2 ^ (8 * n) := by
  obtain ⟨hl, h8, _⟩ := layoutListOk_spec h
  obtain ⟨r, hr, hlt⟩ := rawValue_spec (d := d) h8
  rw [beValue_of_rawValue hr, ← hl]
  exact ⟨by simp [extract, hr], hlt⟩

/-- A signed two-byte extractor over a well-formed list. -/
theorem extract_signed_pair {d : Payload} {f : Field} {os : List Nat} (h : layoutListOk (os, 2) = true) :
    extract ⟨f, os, true, 0⟩ d = some (signed16 (beValue d os)) ∧ beValue d os < 65536 := by
  obtain ⟨hl, h8, _⟩ := layoutListOk_spec h
  obtain ⟨r, hr, hlt⟩ := rawValue_spec (d := d) h8
  rw [beValue_of_rawValue hr]
  rw [hl] at hlt
  refine ⟨?_, by simpa using hlt⟩
  simp [extract, hr, hl, sextRaw, signed16]
  split <;> split <;> omega

/-- The lists of a checked configuration are well formed (R73). -/
theorem configOk_lists {p : Params} (h : configOk p = true) :
    ∀ x ∈ layoutLists p.layout p.socVariant, layoutListOk x = true := by
  simp only [configOk, Bool.and_eq_true] at h
  simpa [layoutOk, List.all_eq_true] using h.1.2

end Sys2Proof.Machine
end

