-- ==== Sys2Proof/Laws/Select.lean ====
section
/-! SUPPORT. Selecting a decode rule: what one LUT entry takes, and `select` as the chain of its eight entries (R64,
R65), in the identifiers WellFormed.lean speaks of. -/

namespace Sys2Proof

/-- R60 as the encoder's side says it. -/
theorem Frame.wf_iff_body (f : Frame) : f.wf = f.body.wf f.id := by
  obtain ⟨id, ide, dlc, d⟩ := f
  cases ide <;> rfl

/-- A frame is its body with its identifier. -/
theorem Frame.body_withId {f : Frame} {x : BitVec 32} (h : f.id = x) : f.body.withId x = f := by
  subst h; rfl

/-- An entry with a full mask compares the whole identifier. -/
theorem LutEntry.takes_full_mask {p : Params} {f : Frame} {r : Rule} {k : BitVec 32} {q : Option Bool} :
    LutEntry.takes p f ⟨r, k, 0xFFFFFFFF#32, q⟩ =
      (f.id == k && (!p.ideQualified || (match q with | none => true | some b => b == f.ide))) := by
  have hall : (0xFFFFFFFF#32) = BitVec.allOnes 32 := by decide
  have hid : f.id &&& 0xFFFFFFFF#32 = f.id := by rw [hall, BitVec.and_allOnes]
  cases q <;> simp [LutEntry.takes, hid]

/-- An entry takes a frame: the test of R65's loop, as a proposition. -/
theorem LutEntry.takes_iff (p : Params) (f : Frame) (e : LutEntry) :
    e.takes p f = true ↔
      (f.id &&& e.mask = e.key ∧ (p.ideQualified = true → e.ideReq = none ∨ e.ideReq = some f.ide)) := by
  obtain ⟨r, k, m, q⟩ := e
  cases q <;> simp [LutEntry.takes]
  rintro -
  cases p.ideQualified <;> simp

/-- Two family keys are equal only for one sub-address. -/
theorem familyKey_inj {p : BitVec 16} {a b : BitVec 16} : ((p ++ a : BitVec 32) = p ++ b) ↔ a = b := by
  constructor
  · intro h
    have h2 := congrArg BitVec.toNat h
    rw [append_toNat_16_16, append_toNat_16_16] at h2
    exact BitVec.eq_of_toNat_eq (by omega)
  · rintro rfl; rfl

/-- `select` as a chain of tests on the identifier and the format (R64, R65). -/
theorem select_chain (p : Params) (f : Frame) : select p f =
    if p.stdOk f.ide && f.id == 6#32 then .motor
    else if p.stdOk f.ide && f.id == 7#32 then .puflags
    else if p.extOk f.ide && f.id == p.bmsId 0#16 then .bms0
    else if p.extOk f.ide && f.id == p.bmsId 2#16 then .bms2
    else if p.extOk f.ide && f.id == p.bmsId 7#16 then .bms7
    else if p.extOk f.ide && f.id == p.bmsId 8#16 then .bms8
    else if p.extOk f.ide && f.id == p.bmsId 0x500#16 then .bms500
    else .ignore := by
  simp only [select, lut, selectIn, LutEntry.takes_full_mask, familyKey, Params.stdOk, Params.extOk, Params.bmsId,
    ite_self, Bool.and_comm (f.id == _)]
  simp

/-- What the command decoder gives is one of the five commands of the word's slot. -/
theorem decodeCommand_ok {p : Params} {by_ : Issuer} {w : BitVec 16} {i : Instr} (h : decodeCommand p by_ w = .ok i) :
    i = .start (cmdSlot w) ∨ i = .stop (cmdSlot w) ∨ i = .reset (cmdSlot w) ∨ i = .kick (cmdSlot w) ∨
      i = .check (cmdSlot w) := by
  have hj : cmdInstr (cmdOp w) (cmdSlot w) = some i := by
    unfold decodeCommand at h
    split at h
    · cases h
    · rename_i j hj
      split at h
      · cases h
      split at h
      · cases h
      split at h
      · cases h
      split at h
      · injection h with h; rw [hj, h]
      · cases h
  unfold cmdInstr at hj
  repeat (first | (split at hj; · injection hj with hj; simp [← hj]) | cases hj)

end Sys2Proof
end

