-- ==== Sys2Proof/Laws/Invariant.lean ====
section
/-! SUPPORT. What the invariant says of the Activity Watchdog's slot and of the others, and what a timer command keeps. -/

namespace Sys2Proof.Machine

theorem activityOf_append {h : List Event} {b : Bool} (es : List Event) (hb : activityOf h = some b) :
    activityOf (h ++ es) = es.foldl activityStep (some b) := by
  unfold activityOf at *; rw [List.foldl_append, hb]

/-- The Activity Watchdog's slot has the configuration R96 gives it. -/
theorem State.Inv.actSlot {s : State} (hi : s.Inv) :
    ∃ x, s.tmr[s.cfg.actSlot]? = some x ∧ x.timeout = s.cfg.actTimeout ∧ x.repeats = false ∧ x.cb = 1#4 := by
  have h := hi.config
  simp only [configOk, Bool.and_eq_true, actSlotOk, beq_iff_eq] at h
  have h3 := h.1.1.1.2
  rw [← hi.slots] at h3
  simp [Timer.init] at h3
  obtain ⟨x, hx, h1, h2, h4⟩ := h3
  exact ⟨x, hx, h1, h2, h4⟩

/-- The registry has `NTIMERS` slots. -/
theorem State.Inv.tmr_length {s : State} (hi : s.Inv) : s.tmr.length = s.cfg.nTimers := by
  have h := hi.config
  simp only [configOk, Bool.and_eq_true, registryOk, beq_iff_eq] at h
  rw [← h.1.1.1.1.1.2, ← hi.slots]; simp

/-- No other slot has the Activity Watchdog's callback (R8 item 4). -/
theorem State.Inv.otherSlot {s : State} (hi : s.Inv) {k : Nat} {x : Timer} (hx : s.tmr[k]? = some x)
    (hk : k ≠ s.cfg.actSlot) : x.cb ≠ 1#4 := by
  have h := hi.config
  simp only [configOk, Bool.and_eq_true, callbacksOk, List.all_eq_true, List.mem_range, Bool.or_eq_true,
    beq_iff_eq] at h
  have hlt : k < s.tmr.length := (List.getElem?_eq_some_iff.mp hx).1
  have h4 := (h.1.1.2 k (by rw [← hi.tmr_length]; exact hlt)).resolve_left hk
  rw [← hi.slots] at h4
  simp [hx, Timer.init, Config.cbActivityStopped] at h4
  exact h4

/-- The On/Off state after a slot's update (R28). -/
theorem State.isOn_setTimer {s : State} {k : Nat} {x y : Timer} (hx : s.tmr[k]? = some x) :
    (s.setTimer k y).isOn = if k = s.cfg.actSlot then y.running else s.isOn := by
  have hlt : k < s.tmr.length := (List.getElem?_eq_some_iff.mp hx).1
  unfold State.isOn State.setTimer
  simp only [List.getElem?_set]
  by_cases h : k = s.cfg.actSlot
  · subst h; simp [hlt]
  · simp [h]

/-- An update that keeps a slot's cfg fields keeps every slot's (R22). -/
theorem map_init_set {l : List Timer} {k : Nat} {x y : Timer} (hx : l[k]? = some x) (h : y.init = x.init) :
    (l.set k y).map Timer.init = l.map Timer.init := by
  obtain ⟨hk, rfl⟩ := List.getElem?_eq_some_iff.mp hx
  rw [List.map_set, h]
  apply List.ext_getElem
  · simp
  · intro i h1 h2
    simp only [List.getElem_set, List.getElem_map]
    split
    · rename_i hki; subst hki; rfl
    · rfl

theorem afterExpiry_init (now : BitVec 32) (x : Timer) : (afterExpiry now x).init = x.init := by
  unfold afterExpiry; split <;> rfl

/-- The invariant does not look at what is scheduled. -/
theorem State.Inv.reschedule {s : State} (hi : s.Inv) (sc : List Act) (dc : Nat) :
    ({ s with script := sc, drawCnt := dc } : State).Inv := by
  obtain ⟨h1, h2, h3, h4, h5, h6, h7, h8, h9, h10⟩ := hi
  exact ⟨h1, h2, h3, h4, h5, h6, h7, h8, h9, h10⟩

/-- What a timer command keeps: everything but the registry's dynamic fields, the sink and the history (R99, R109). -/
theorem exec_command_frame {p : Params} {by_ : Issuer} {w : BitVec 16} {i : Instr} {s t : State}
    (hd : decodeCommand p by_ w = .ok i) (he : exec i s = .next t) :
    t.phase = s.phase ∧ t.cfg = s.cfg ∧ t.record = s.record ∧ t.tmr.map Timer.init = s.tmr.map Timer.init ∧
      t.now = s.now ∧ t.sync = s.sync ∧ t.frm = s.frm ∧ t.pend = s.pend ∧ t.wakeCnt = s.wakeCnt ∧
      t.schIdx = s.schIdx ∧ t.script = s.script ∧ t.drawCnt = s.drawCnt := by
  rcases decodeCommand_ok hd with rfl | rfl | rfl | rfl | rfl
  · obtain ⟨x, hx, -, rfl⟩ := ownerCommand_next he
    exact ⟨rfl, rfl, rfl, map_init_set hx rfl, rfl, rfl, rfl, rfl, rfl, rfl, rfl, rfl⟩
  · obtain ⟨x, hx, -, rfl⟩ := ownerCommand_next he
    exact ⟨rfl, rfl, rfl, map_init_set hx rfl, rfl, rfl, rfl, rfl, rfl, rfl, rfl, rfl⟩
  · obtain ⟨x, hx, -, rfl⟩ := ownerCommand_next he
    exact ⟨rfl, rfl, rfl, map_init_set hx rfl, rfl, rfl, rfl, rfl, rfl, rfl, rfl, rfl⟩
  · obtain ⟨x, hx, -, ⟨-, rfl⟩ | ⟨-, rfl⟩⟩ := execKick_next he
    · exact ⟨rfl, rfl, rfl, map_init_set hx rfl, rfl, rfl, rfl, rfl, rfl, rfl, rfl, rfl⟩
    · exact ⟨rfl, rfl, rfl, map_init_set hx rfl, rfl, rfl, rfl, rfl, rfl, rfl, rfl, rfl⟩
  · obtain ⟨x, hx, ⟨-, rfl⟩ | ⟨-, rfl⟩⟩ := execCheck_next he
    · rcases State.callback_cases s (cmdSlot w) x.cb with ⟨-, hcb⟩ | ⟨-, hcb⟩ <;> rw [hcb] <;>
        exact ⟨rfl, rfl, rfl, map_init_set (l := s.tmr) hx (afterExpiry_init _ _), rfl, rfl, rfl, rfl, rfl, rfl, rfl, rfl⟩
    · exact ⟨rfl, rfl, rfl, rfl, rfl, rfl, rfl, rfl, rfl, rfl, rfl, rfl⟩

end Sys2Proof.Machine
end

