-- ==== Sys2Proof/Laws/PerInstr.lean ====
section
/-! SUPPORT. Families of statements about each instruction as syntax. `EncodingShape`: an instruction's image has the
length of the port it comes in on, thirteen bytes for a frame and two for a command word, under any configuration. -/

namespace Sys2Proof.Laws.EncodingShape

/-- The image has its port's length. -/
def Statement (i : Instr) : Prop :=
  ∀ p : Params, (encode p i).length = (match i.port with | .frames => 13 | .commands _ => 2)

theorem drMotor (b : FrameBody) : Statement (.drMotor b) := fun _ => rfl
theorem drPuflags (b : FrameBody) : Statement (.drPuflags b) := fun _ => rfl
theorem drBms0 (b : FrameBody) : Statement (.drBms0 b) := fun _ => rfl
theorem drBms2 (b : FrameBody) : Statement (.drBms2 b) := fun _ => rfl
theorem drBms7 (b : FrameBody) : Statement (.drBms7 b) := fun _ => rfl
theorem drBms8 (b : FrameBody) : Statement (.drBms8 b) := fun _ => rfl
theorem drBms500 (b : FrameBody) : Statement (.drBms500 b) := fun _ => rfl
theorem drIgnore (id : BitVec 32) (b : FrameBody) : Statement (.drIgnore id b) := fun _ => rfl
theorem start (k : BitVec 8) : Statement (.start k) := fun _ => rfl
theorem stop (k : BitVec 8) : Statement (.stop k) := fun _ => rfl
theorem reset (k : BitVec 8) : Statement (.reset k) := fun _ => rfl
theorem kick (k : BitVec 8) : Statement (.kick k) := fun _ => rfl
theorem check (k : BitVec 8) : Statement (.check k) := fun _ => rfl

end Sys2Proof.Laws.EncodingShape
end

