-- ==== Sys2Proof/Laws/Record.lean ====
section
/-! SUPPORT. The record as a register file: a read after a write of the same field gives the value written when it
fits (R47), and a write leaves every other field alone (R44, R83). -/

namespace Sys2Proof.Machine

theorem toInt_ofInt_16 {v : Int} (h1 : -32768 ≤ v) (h2 : v < 32768) : (BitVec.ofInt 16 v).toInt = v := by
  rw [BitVec.toInt_ofInt]
  exact Int.bmod_eq_of_le (by omega) (by omega)

theorem toNat_ofInt {n : Nat} {v : Int} (h1 : 0 ≤ v) (h2 : v < 2 ^ n) : ((BitVec.ofInt n v).toNat : Int) = v := by
  rw [BitVec.toNat_ofInt, Int.toNat_of_nonneg]
  · exact Int.emod_eq_of_lt h1 (by exact_mod_cast h2)
  · exact Int.emod_nonneg _ (by positivity)

@[simp] theorem Rec.get_set_same {r : Rec} {f : Field} {v : Int} (h : fieldFits f v = true) :
    (r.set f v).get f = v := by
  cases f <;> simp only [fieldFits, fieldType, Bool.and_eq_true, decide_eq_true_eq] at h <;>
    first
      | exact toInt_ofInt_16 (by have := h.1; norm_num at this; omega) (by have := h.2; norm_num at this; omega)
      | exact toNat_ofInt h.1 h.2
      | rfl

@[simp] theorem Rec.get_set_ne {r : Rec} {f g : Field} {v : Int} (h : g ≠ f) : (r.set f v).get g = r.get g := by
  cases f <;> cases g <;> first | rfl | exact absurd rfl h

/-- Writes of two different fields commute, so the order of one frame's writes cannot be told from the record. -/
theorem Rec.set_comm {r : Rec} {f g : Field} {v w : Int} (h : f ≠ g) :
    (r.set f v).set g w = (r.set g w).set f v := by
  cases f <;> cases g <;> first | rfl | exact absurd rfl h

@[simp] theorem Rec.get_zero (f : Field) : Rec.zero.get f = 0 := by cases f <;> rfl

/-- `uN`: 0 to 2^N - 1 (R10). -/
theorem typeHolds_u {n : Nat} {v : Int} : typeHolds (.u n) v = true ↔ 0 ≤ v ∧ v < 2 ^ n := by
  simp [typeHolds]

/-- `sN`: -2^(N-1) to 2^(N-1) - 1 (R10). -/
theorem typeHolds_s {n : Nat} {v : Int} : typeHolds (.s (n + 1)) v = true ↔ -(2 ^ n) ≤ v ∧ v < 2 ^ n := by
  simp only [typeHolds, Bool.and_eq_true, decide_eq_true_eq, pow_succ]
  constructor <;> rintro ⟨h1, h2⟩ <;> constructor <;> omega

/-- `int`: every integer (R10). -/
@[simp] theorem typeHolds_int (v : Int) : typeHolds .int v = true := rfl

/-- The reset value of `GROUND_SPEED` is a value of every type. -/
@[simp] theorem typeHolds_zero (t : ValueType) : typeHolds t 0 = true := by
  cases t <;> simp [typeHolds]

/-- A write of another field leaves `GROUND_SPEED` as it is. -/
theorem Rec.groundSpeed_set_ne {r : Rec} {f : Field} {v : Int} (h : f ≠ .groundSpeed) :
    (r.set f v).groundSpeed = r.groundSpeed := Rec.get_set_ne h.symm

theorem fieldOfIdx_idx (f : Field) : fieldOfIdx (fieldIdx f) = some f := by cases f <;> rfl

theorem fieldOfIdx_eq_none_iff (n : Nat) : fieldOfIdx n = none ↔ 24 < n := by
  unfold fieldOfIdx allFields
  rw [List.getElem?_eq_none_iff]
  simp
  omega

end Sys2Proof.Machine
end

