-- ==== Sys2Proof/Tests/Slice0.lean ====
section
/-! SUPPORT. The model's own tests: the ill-formed terms the checks refuse, one written-out word for each instruction,
the worked vectors of 95_test_vectors.md, and a witness for the hypotheses of every statement. -/

namespace Sys2Proof.Tests

open Sys2Proof.Machine

/-! ## Small states (CFG-T of 95_test_vectors.md) -/

def slotT : TimerInit := { timeout := 100#32, repeats := false, cb := 0#4 }

def cfgT : Params :=
  { Params.placeholder with
    nTimers := 2, tmrInit := [TimerInit.activity, slotT], wakeMax := 2, gaugeRestOnStop := true }

def base : State := { State.reset.configured cfgT with phase := .run }

def bytes (a b c d e f g h : Nat) : Payload :=
  ⟨BitVec.ofNat 8 a, BitVec.ofNat 8 b, BitVec.ofNat 8 c, BitVec.ofNat 8 d, BitVec.ofNat 8 e, BitVec.ofNat 8 f,
    BitVec.ofNat 8 g, BitVec.ofNat 8 h⟩

def std (id dlc : Nat) (d : Payload) : Frame := ⟨BitVec.ofNat 32 id, false, BitVec.ofNat 4 dlc, d⟩
def ext (id dlc : Nat) (d : Payload) : Frame := ⟨BitVec.ofNat 32 id, true, BitVec.ofNat 4 dlc, d⟩

def zeros : Payload := bytes 0 0 0 0 0 0 0 0
def w1Data : Payload := bytes 0x3C 0x3C 0x0A 0 0x64 0 0x32 0
def w1 : Frame := std 6 8 w1Data
def w1Writes : List (Field × Int) :=
  [(.motorTemp, 20), (.invTemp, 20), (.motorRpm, 10), (.dcVolt, 100), (.dcCurr, 50)]
def beacon : Frame := std 7 2 zeros
def unknown : Frame := std 0x123 8 (bytes 0x11 0x22 0x33 0x44 0x55 0x66 0x77 0x88)

def nextOf : Result → Option State
  | .next s => some s
  | _ => none

def refusalOf : Result → Option Refusal
  | .refused r => some r
  | _ => none

/-- The pending writes after an instruction. -/
def pendAfter (i : Instr) (s : State) : Option (List (Field × Int)) := (nextOf (exec i s)).map State.pend

/-- A slot after an instruction. -/
def slotAfter (k : Nat) (i : Instr) (s : State) : Option Timer := (nextOf (exec i s)).bind (fun t => t.tmr[k]?)

/-- The events an instruction adds to an empty history. -/
def evhAfter (i : Instr) (s : State) : Option (List Event) := (nextOf (exec i s)).map State.evh

def slot0 (running : Bool) (lr : Nat) : Timer := ⟨3200#32, false, 1#4, running, BitVec.ofNat 32 lr⟩
def slot1 (running : Bool) (lr : Nat) : Timer := ⟨100#32, false, 0#4, running, BitVec.ofNat 32 lr⟩

/-- `base` with its two slots and its time. -/
def timers (t0 t1 : Timer) (now : Nat) : State := { base with tmr := [t0, t1], now := BitVec.ofNat 32 now }

def started : List Event := [.activityStarted, .modeSet .ready, .autoUpdate true, .gaugeStandby false]
def stopped : List Event := [.activityStopped, .modeSet .idle, .autoUpdate false, .gaugeStandby true, .gaugeRest]

/-- On since `NOW = 0`, and the time is 3200: expired and not yet checked. -/
def due : State := { timers (slot0 true 0) (slot1 false 0) 3200 with evh := started, mode := .ready, autoUpdate := true }

/-! ## The invariant of a small state, by evaluation -/

def pendCheck (s : State) : Bool :=
  match dispatchOf s.cfg s.frm with
  | .ok (_, w) => s.pend.isSublist w
  | .error _ => false

def invCheck (s : State) : Bool :=
  configOk s.cfg && s.tmr.map Timer.init == s.cfg.tmrInit && decide (s.schIdx.toNat < s.cfg.nTimers) &&
  decide (s.wakeCnt ≤ s.cfg.wakeMax) && (s.sync == .dispatch || s.pend.isEmpty) &&
  (s.sync != .dispatch || pendCheck s) && (s.sync == .wait || s.sync == .recv || s.frm.wf) && s.phase == .run &&
  activityOf s.evh == some s.isOn && typeHolds s.cfg.groundSpeedT s.record.groundSpeed

theorem pendCheck_spec {s : State} (h : pendCheck s = true) :
    ∃ o w, dispatchOf s.cfg s.frm = .ok (o, w) ∧ s.pend.Sublist w := by
  unfold pendCheck at h
  split at h
  · exact ⟨_, _, ‹_›, List.isSublist_iff_sublist.mp h⟩
  · cases h

theorem invCheck_spec {s : State} (h : invCheck s = true) : s.Inv := by
  simp only [invCheck, Bool.and_eq_true, Bool.or_eq_true, beq_iff_eq, bne_iff_ne, decide_eq_true_eq,
    List.isEmpty_iff] at h
  obtain ⟨⟨⟨⟨⟨⟨⟨⟨⟨h1, h2⟩, h3⟩, h4⟩, h5⟩, h6⟩, h7⟩, h8⟩, h9⟩, h10⟩ := h
  refine ⟨h1, h2, h3, h4, fun hs => h5.resolve_left hs, fun hs => ?_, fun hs => ?_, fun hs => absurd h8 hs, h9, h10⟩
  · exact pendCheck_spec (h6.resolve_left (not_not.mpr hs))
  · rcases h7 with (h7 | h7) | h7
    · rcases hs with hs | hs <;> rw [h7] at hs <;> cases hs
    · rcases hs with hs | hs <;> rw [h7] at hs <;> cases hs
    · exact h7

/-! ## Well-formedness smoke: one ill-formed term for each check -/

theorem test_wf_dlc_nine : (Instr.drMotor ⟨false, 9#4, zeros⟩).wf cfgT = false := by decide
theorem test_wf_motor_extended_when_qualified :
    (Instr.drMotor ⟨true, 8#4, zeros⟩).wf { cfgT with ideQualified := true } = false := by decide
theorem test_wf_family_standard_id_too_wide : (Instr.drBms0 ⟨false, 8#4, zeros⟩).wf cfgT = false := by decide
theorem test_wf_family_standard_when_qualified :
    (Instr.drBms500 ⟨false, 8#4, zeros⟩).wf { cfgT with bmsPrefix := 0, ideQualified := true } = false := by decide
theorem test_wf_family_taken_by_beacon :
    (Instr.drBms7 ⟨false, 8#4, zeros⟩).wf { cfgT with bmsPrefix := 0 } = false := by decide
theorem test_wf_ignore_wide_standard : (Instr.drIgnore 0x800#32 ⟨false, 8#4, zeros⟩).wf cfgT = false := by decide
theorem test_wf_ignore_wide_extended : (Instr.drIgnore 0x20000000#32 ⟨true, 8#4, zeros⟩).wf cfgT = false := by decide
theorem test_wf_ignore_claimed_exact : (Instr.drIgnore 6#32 ⟨false, 8#4, zeros⟩).wf cfgT = false := by decide
theorem test_wf_ignore_claimed_family :
    (Instr.drIgnore 0x18100008#32 ⟨true, 8#4, zeros⟩).wf cfgT = false := by decide
theorem test_wf_owner_commands_on_act_slot :
    ([Instr.start 0, .stop 0, .reset 0].all fun i => !i.wf cfgT) = true := by decide
theorem test_wf_kick_elsewhere : (Instr.kick 1).wf cfgT = false := by decide
theorem test_wf_slot_too_large :
    ([Instr.start 2, .stop 2, .reset 2, .kick 2, .check 2].all fun i => !i.wf cfgT) = true := by decide

/-! The configuration checks of R8, one failing term each (T29 to T32 and the rest of the list). -/

theorem test_config_t29_zero_timeout :
    configOk { cfgT with tmrInit := [TimerInit.activity, { slotT with timeout := 0 }] } = false := by decide
theorem test_config_t30_act_slot_repeats :
    configOk { cfgT with tmrInit := [{ TimerInit.activity with repeats := true }, slotT] } = false := by decide
theorem test_config_t31_callback_elsewhere :
    configOk { cfgT with tmrInit := [TimerInit.activity, { slotT with cb := 1 }] } = false := by decide
theorem test_config_t32_soc_list_too_short : configOk { cfgT with socVariant := .soc2bCpct } = false := by decide
theorem test_config_no_timers : configOk { cfgT with nTimers := 0, tmrInit := [] } = false := by decide
theorem test_config_act_slot_outside : configOk { cfgT with actSlot := 2 } = false := by decide
theorem test_config_act_timeout_differs : configOk { cfgT with actTimeout := 3201 } = false := by decide
theorem test_config_layout_index_eight :
    configOk { cfgT with layout := { Layout.placeholder with soc := [8] } } = false := by decide
theorem test_config_layout_index_twice :
    configOk { cfgT with layout := { Layout.placeholder with cellCount := [2, 2] } } = false := by decide
theorem test_config_bias : configOk { cfgT with bmsTempBias := 41 } = false := by decide
theorem test_config_wake_max : configOk { cfgT with wakeMax := 0 } = false := by decide
theorem test_config_ok : configOk cfgT = true := by decide

/-! ## Decoding: every instruction from bits written out from the spec's encoding (R59, R64, R74, R75) -/

/-- Entry 0: `ID = 0x00000006`, standard, length 8. -/
theorem test_decode_motor :
    decode cfgT .frames [0b00000110, 0, 0, 0, 0b00001000, 0x3C, 0x3C, 0x0A, 0, 0x64, 0, 0x32, 0] =
      .ok (.drMotor ⟨false, 8#4, w1Data⟩) := by rfl
/-- Entry 1: `ID = 0x00000007`, standard, length 2. -/
theorem test_decode_puflags :
    decode cfgT .frames [0b00000111, 0, 0, 0, 0b00000010, 0, 0, 0, 0, 0, 0, 0, 0] =
      .ok (.drPuflags ⟨false, 2#4, zeros⟩) := by rfl
/-- Entries 2 to 6: `ID = 0x1810` above the sub-address, extended, length 8. -/
theorem test_decode_bms0 :
    decode cfgT .frames [0x00, 0x00, 0b00010000, 0b00011000, 0b00011000, 0, 0, 0, 0, 0, 0, 0, 0] =
      .ok (.drBms0 ⟨true, 8#4, zeros⟩) := by rfl
theorem test_decode_bms2 :
    decode cfgT .frames [0b00000010, 0x00, 0x10, 0x18, 0b00011000, 0, 0, 0, 0, 0, 0, 0, 0] =
      .ok (.drBms2 ⟨true, 8#4, zeros⟩) := by rfl
theorem test_decode_bms7 :
    decode cfgT .frames [0b00000111, 0x00, 0x10, 0x18, 0b00011000, 0, 0, 0, 0, 0, 0, 0, 0] =
      .ok (.drBms7 ⟨true, 8#4, zeros⟩) := by rfl
theorem test_decode_bms8 :
    decode cfgT .frames [0b00001000, 0x00, 0x10, 0x18, 0b00011000, 0, 0, 0, 0, 0, 0, 0, 0] =
      .ok (.drBms8 ⟨true, 8#4, zeros⟩) := by rfl
theorem test_decode_bms500 :
    decode cfgT .frames [0x00, 0b00000101, 0x10, 0x18, 0b00011000, 0, 0, 0, 0, 0, 0, 0, 0] =
      .ok (.drBms500 ⟨true, 8#4, zeros⟩) := by rfl
/-- Entry 7 takes the rest: 0x123 (V27), an unlisted sub-address (V25), another prefix (V26). -/
theorem test_decode_ignore :
    decodeFrame cfgT unknown = .ok (.drIgnore 0x123#32 unknown.body) ∧
    decodeFrame cfgT (ext 0x18100001 8 zeros) = .ok (.drIgnore 0x18100001#32 ⟨true, 8#4, zeros⟩) ∧
    decodeFrame cfgT (ext 0x18110500 8 zeros) = .ok (.drIgnore 0x18110500#32 ⟨true, 8#4, zeros⟩) :=
  ⟨rfl, rfl, rfl⟩
/-- The format bit takes part only when `IDE_QUALIFIED` (V9, V10, V11). -/
theorem test_decode_ide :
    decodeFrame cfgT (ext 7 8 zeros) = .ok (.drPuflags ⟨true, 8#4, zeros⟩) ∧
    decodeFrame { cfgT with ideQualified := true } (ext 7 8 zeros) = .ok (.drIgnore 7#32 ⟨true, 8#4, zeros⟩) ∧
    decodeFrame { cfgT with ideQualified := true } (ext 6 8 zeros) = .ok (.drIgnore 6#32 ⟨true, 8#4, zeros⟩) :=
  ⟨rfl, rfl, rfl⟩
/-- With prefix 0 the beacon's entry comes before sub-address 7's (V28, V29, V30). -/
theorem test_decode_prefix_zero :
    decodeFrame { cfgT with bmsPrefix := 0 } (std 0 8 zeros) = .ok (.drBms0 ⟨false, 8#4, zeros⟩) ∧
    decodeFrame { cfgT with bmsPrefix := 0 } (std 7 2 zeros) = .ok (.drPuflags ⟨false, 2#4, zeros⟩) ∧
    decodeFrame { cfgT with bmsPrefix := 0, ideQualified := true } (std 0x500 8 zeros) =
      .ok (.drIgnore 0x500#32 ⟨false, 8#4, zeros⟩) := ⟨rfl, rfl, rfl⟩
/-- V31 and V32. -/
theorem test_decode_bad_frames :
    decodeFrame cfgT (std 0x800 8 zeros) = .error .badFrame ∧ decodeFrame cfgT (std 6 9 zeros) = .error .badFrame :=
  ⟨rfl, rfl⟩

/-- `0001 0000 kkkkkkkk` and the four other patterns of R75, low byte first on the port. -/
theorem test_decode_commands :
    decode cfgT (.commands .host) [0b00000001, 0b00010000] = .ok (.start 1#8) ∧
    decode cfgT (.commands .host) [0b00000001, 0b00100000] = .ok (.stop 1#8) ∧
    decode cfgT (.commands .host) [0b00000001, 0b00110000] = .ok (.reset 1#8) ∧
    decode cfgT (.commands .fas) [0b00000000, 0b01000000] = .ok (.kick 0#8) ∧
    decode cfgT (.commands .scheduler) [0b00000001, 0b01010000] = .ok (.check 1#8) := ⟨rfl, rfl, rfl, rfl, rfl⟩
/-- T21 to T28, with the reason R139 gives first. -/
theorem test_decode_reserved_commands :
    decodeCommand cfgT .host 0x0001#16 = .error (.badCommand .op) ∧
    decodeCommand cfgT .host 0x6001#16 = .error (.badCommand .op) ∧
    decodeCommand cfgT .host 0x1101#16 = .error (.badCommand .rsv) ∧
    decodeCommand cfgT .host 0x1002#16 = .error (.badCommand .slot) ∧
    decodeCommand cfgT .fas 0x4001#16 = .error (.badCommand .slot) ∧
    decodeCommand cfgT .host 0x1000#16 = .error (.badCommand .issuer) ∧
    decodeCommand cfgT .host 0x4000#16 = .error (.badCommand .issuer) ∧
    decodeCommand cfgT .host 0x5001#16 = .error (.badCommand .issuer) ∧
    decodeCommand cfgT .host 0x0102#16 = .error (.badCommand .op) := ⟨rfl, rfl, rfl, rfl, rfl, rfl, rfl, rfl, rfl⟩

/-! A word placed where the next step takes its instruction, from reset and from the run phase. -/

theorem test_withFetchWord_motor :
    (nextOf (step (State.reset.withFetchWord 32 6))).map (fun s => (s.frm, s.sync, s.pend)) =
      some (std 6 0 zeros, .dispatch,
        [(.motorTemp, -40), (.invTemp, -40), (.motorRpm, 0), (.dcVolt, 0), (.dcCurr, 0)]) := by decide
theorem test_withFetchWord_start :
    (nextOf (step (State.reset.withFetchWord 16 0x1003))).map (fun s => s.tmr[3]?.map Timer.running) =
      some (some true) := by rfl
theorem test_withFetchWord_kick :
    (nextOf (step (State.reset.withFetchWord 16 0x4000))).map State.evh = some started := by rfl
theorem test_withFetchWord_check :
    (nextOf (step (State.reset.withFetchWord 16 0x5001))).map (fun s => s.schIdx) = some 0#8 := by rfl
/-- V15 as a whole image: identifier, `DLC` 8 with `IDE`, then the data. -/
theorem test_withFetchWord_family :
    (nextOf (step (base.withFetchWord 104 0x00000000007D8278_18_18100002))).map (fun s => (s.frm.ide, s.pend)) =
      some (true, [(.modTMin, 20), (.modTMax, 30), (.modTAvg, 25)]) := by rfl

/-! ## The instructions on the vectors of 95_test_vectors.md -/

/-- W1, and W2's sentinel beyond `DLC`. -/
theorem test_motor_w1 : pendAfter (.drMotor w1.body) base = some w1Writes := by decide
theorem test_motor_w2 :
    (nextOf (exec (.drMotor ⟨false, 2#4, bytes 0x3C 0x3C 0 0 0 0 0 0xFF⟩) { base with monEn := true })).map
      (fun s => (s.pend, s.sync, s.evh)) =
    some ([], .dispatch,
      [.echo (std 6 2 (bytes 0x3C 0x3C 0 0 0 0 0 0xFF)) .motor .discarded]) := by decide
/-- V1 and V2: the extremes. -/
theorem test_motor_v1 :
    pendAfter (.drMotor ⟨false, 8#4, bytes 0xFE 0 0xFE 0x7F 0xFE 0xFE 0 0x80⟩) base =
      some [(.motorTemp, 214), (.invTemp, -40), (.motorRpm, 32766), (.dcVolt, 65278), (.dcCurr, -32768)] := by decide
theorem test_motor_v2 :
    pendAfter (.drMotor ⟨false, 8#4, bytes 0x28 0x29 0 0x80 1 0 0xFE 0xFE⟩) base =
      some [(.motorTemp, 0), (.invTemp, 1), (.motorRpm, -32768), (.dcVolt, 1), (.dcCurr, -258)] := by decide
/-- V7: no sentinel; V8: bytes beyond `DLC`. -/
theorem test_puflags_v7 :
    pendAfter (.drPuflags ⟨false, 2#4, bytes 0xFF 0xFF 0xFF 0xFF 0xFF 0xFF 0xFF 0xFF⟩) base =
      some [(.puFlags, 0xFFFF)] := by decide
theorem test_puflags_v8 :
    pendAfter (.drPuflags ⟨false, 0#4, bytes 0xAA 0xBB 0 0 0 0 0 0⟩) base = some [(.puFlags, 0xBBAA)] := by decide
theorem test_bms0_v12 :
    pendAfter (.drBms0 ⟨true, 8#4, bytes 5 0x0A 0 3 0x60 0 0x2D 0⟩) base =
      some [(.bmsInFlags, 5), (.bmsOutFlags, 10), (.bmsCellCount, 96), (.bmsChgState, 3), (.bmsChgDuration, 45),
        (.bmsLastErr, 0)] := by decide
theorem test_bms0_v14 :
    pendAfter (.drBms0 ⟨true, 8#4, bytes 0 0 1 6 2 0 1 0⟩) base =
      some [(.bmsInFlags, 0), (.bmsOutFlags, 0), (.bmsCellCount, 258), (.bmsChgState, 6), (.bmsChgDuration, 1),
        (.bmsLastErr, 0)] := by decide
theorem test_bms2_v16 :
    pendAfter (.drBms2 ⟨true, 8#4, bytes 0x78 0x82 0x7D 0 0 0 0 0⟩) { base with cfg := { cfgT with bmsTempBias := 40 } } =
      some [(.modTMin, 80), (.modTMax, 90), (.modTAvg, 85)] := by decide
theorem test_bms2_v17 :
    pendAfter (.drBms2 ⟨true, 8#4, bytes 0 0xFF 0x64 0 0 0 0 0⟩) base =
      some [(.modTMin, -100), (.modTMax, 155), (.modTAvg, 0)] := by decide
theorem test_bms7_v18 :
    pendAfter (.drBms7 ⟨true, 8#4, bytes 0x80 0 0 1 2 0x40 0 0⟩) base =
      some [(.bmsProtFlags, 0x80000001), (.bmsRedFlags, 2), (.bmsBattStatus, 0x40)] := by decide
theorem test_bms8_v20 :
    pendAfter (.drBms8 ⟨true, 8#4, bytes 0x5A 0x6E 0x64 0 0 0 0 0⟩) base =
      some [(.cellTMin, -10), (.cellTMax, 10), (.cellTAvg, 0)] := by decide
theorem test_bms500_v22 :
    pendAfter (.drBms500 ⟨true, 8#4, bytes 0x80 0 0xFF 0xFF 0 0 0x27 0x10⟩) base =
      some [(.packCurr, -32768), (.packCharge, 65535), (.soc, 16)] := by decide
/-- V23: two bytes of state of charge. -/
theorem test_bms500_v23 :
    pendAfter (.drBms500 ⟨true, 8#4, bytes 0x80 0 0xFF 0xFF 0 0 0x27 0x10⟩)
        { base with cfg := { cfgT with socVariant := .soc2bCpct, layout := { Layout.placeholder with soc := [6, 7] } } } =
      some [(.packCurr, -32768), (.packCharge, 65535), (.soc, 10000)] := by decide
/-- V27 with the monitor on (S17). -/
theorem test_ignore_s17 :
    (nextOf (exec (.drIgnore 0x123#32 unknown.body) { base with monEn := true })).map (fun s => (s.pend, s.evh)) =
      some ([], [.echo unknown .ignore .ignored]) := by decide
/-- S18: the filter keeps another identifier's frame out of the echo. -/
theorem test_puflags_s18 :
    (nextOf (exec (.drPuflags ⟨false, 2#4, bytes 0x34 0x12 0 0 0 0 0 0⟩)
      { base with monEn := true, monFilterEn := true, monId := 6#29 })).map (fun s => (s.pend, s.evh)) =
      some ([(.puFlags, 0x1234)], []) := by decide

/-- T1 and T2. -/
theorem test_start_t1 : slotAfter 1 (.start 1) (timers (slot0 false 0) (slot1 false 0) 500) = some (slot1 true 500) := by
  decide
theorem test_start_t2 : slotAfter 1 (.start 1) (timers (slot0 false 0) (slot1 true 500) 600) = some (slot1 true 600) := by
  decide
/-- T3 and T4. -/
theorem test_stop_t3 : slotAfter 1 (.stop 1) (timers (slot0 false 0) (slot1 true 600) 650) = some (slot1 false 600) := by
  decide
theorem test_stop_t4 : slotAfter 1 (.stop 1) (timers (slot0 false 0) (slot1 false 600) 660) = some (slot1 false 600) := by
  decide
/-- T5 and T15. -/
theorem test_reset_t5 : slotAfter 1 (.reset 1) (timers (slot0 false 0) (slot1 false 600) 700) = some (slot1 false 700) := by
  decide
theorem test_reset_t15 : slotAfter 1 (.reset 1) (timers (slot0 false 0) (slot1 true 0) 150) = some (slot1 true 150) := by
  decide
/-- T16 and T17. -/
theorem test_kick_t16 :
    (nextOf (exec (.kick 0) (timers (slot0 false 0) (slot1 false 0) 10))).map
      (fun s => (s.tmr, s.evh, s.mode, s.autoUpdate)) =
      some ([slot0 true 10, slot1 false 0], started, .ready, true) := by decide
theorem test_kick_t17 :
    (nextOf (exec (.kick 0) (timers (slot0 true 10) (slot1 false 0) 20))).map (fun s => (s.tmr, s.evh)) =
      some ([slot0 true 20, slot1 false 0], []) := by decide
/-- T13: the elapsed time across the wrap of `NOW`, at 99 and at 100. -/
theorem test_check_t13 :
    evhAfter (.check 1) (timers (slot0 false 0) (slot1 true 0xFFFFFFF0) 0x53) = some [] ∧
    evhAfter (.check 1) (timers (slot0 false 0) (slot1 true 0xFFFFFFF0) 0x54) = some [.timerExpired 1 0] := by decide
/-- T10 (re-armed from the check) and T18 (the Activity Watchdog). -/
theorem test_check_t10_t18 :
    (nextOf (exec (.check 1)
      (timers (slot0 false 0) { slot1 true 0 with repeats := true, cb := 3 } 130))).map (fun s => (s.tmr[1]?, s.evh)) =
      some (some { slot1 true 130 with repeats := true, cb := 3 }, [.timerExpired 1 3]) ∧
    (nextOf (exec (.check 0) (timers (slot0 true 20) (slot1 false 0) 3220))).map
      (fun s => (s.tmr, s.evh, s.mode, s.autoUpdate)) =
      some ([slot0 false 20, slot1 false 0], stopped, .idle, false) := by decide

/-! ## The agents' steps (S1 to S14), the registers (H1 to H12) and the boot order (B1 to B3) -/

theorem test_irq_s1_s2 :
    (nextOf (perform .irq base)).map State.wakeCnt = some 1 ∧
    (nextOf (perform .irq { base with wakeCnt := 2 })).map State.wakeCnt = some 2 := by decide
theorem test_wait_s3_s6 :
    (nextOf (takeAct .waitTake { base with wakeCnt := 2 })).map (fun s => (s.sync, s.wakeCnt)) = some (.recv, 1) ∧
    refusalOf (takeAct .waitTake base) = some .notEnabled ∧
    (nextOf (takeAct .waitPoll { base with wakeCnt := 1, cfg := { cfgT with rxMode := .poll } })).map
      (fun s => (s.sync, s.wakeCnt)) = some (.recv, 1) := by decide
theorem test_recv_s7_s8 :
    (nextOf (takeAct (.recv .none) { base with sync := .recv })).map (fun s => (s.sync, s.evh)) = some (.wait, []) ∧
    (nextOf (takeAct (.recv .error) { base with sync := .recv })).map (fun s => (s.sync, s.evh)) =
      some (.wait, [.transportFault]) := by decide
/-- S10 and S11. -/
theorem test_dispatch_s10_s11 :
    refusalOf (takeAct .endDispatch (base.dispatching w1 .motor .written w1Writes)) = some .notEnabled ∧
    (nextOf (takeAct (.write .dcCurr 50) (base.dispatching w1 .motor .written w1Writes))).map
      (fun s => (s.record.get .dcCurr, s.record.get .dcVolt, s.pend.length)) = some (50, 0, 4) := by decide
/-- S13 and S14. -/
theorem test_beacon_check_s13_s14 :
    (nextOf (takeAct .beaconCheck { base with sync := .kick, frm := w1 })).map (fun s => (s.sync, s.tmr, s.evh)) =
      some (.wait, base.tmr, []) ∧
    (nextOf (takeAct .beaconCheck { base with sync := .kick, frm := beacon })).map (fun s => (s.sync, s.tmr, s.evh)) =
      some (.wait, [slot0 true 0, slot1 false 0], started) := by decide
theorem test_registers_h1_h4 :
    (nextOf (perform (.regWrite 0 3) base)).map (fun s => (s.monEn, s.monFilterEn)) = some (true, true) ∧
    refusalOf (perform (.regWrite 0 4) base) = some .badRegWrite ∧
    (nextOf (perform (.regWrite 1 0x1FFFFFFF) base)).map State.monId = some 0x1FFFFFFF#29 ∧
    refusalOf (perform (.regWrite 1 0x20000000) base) = some .badRegWrite := by decide
theorem test_registers_h6_h11 :
    ([0x002, 0x004, 0x105, 0x108].all fun i => refusalOf (perform (.regWrite i 0) base) == some .badRegWrite) = true ∧
    [0x100, 0x101, 0x102, 0x007, 0x103, 0x108].map base.readReg = [0x10#32, 3200#32, 0#32, 0#32, 0#32, 0#32] := by decide
theorem test_registers_h5_h12 :
    due.readReg 0x002 = 1#32 ∧ due.readReg 0x100 = 0x11#32 ∧
    (base.dispatching w1 .motor .written w1Writes).readReg 0x005 = 2#32 := by decide
theorem test_boot_b1 :
    (nextOf (takeAct (.takeConfig cfgT) State.reset)).map (fun s => (s.phase, s.tmr)) =
      some (.setup, [slot0 false 0, slot1 false 0]) ∧
    refusalOf (takeAct (.takeConfig { cfgT with wakeMax := 0 }) State.reset) = some .badConfig := by decide
/-- B2 and B3. -/
theorem test_boot_b2_b3 :
    (nextOf (takeAct (.configure false) (State.reset.configured cfgT))).map (fun s => (s.phase, s.evh)) =
      some (.run, [.transportFault]) ∧
    nextOf (takeAct (.restart ResetDraws.zero) due) = some State.reset := by decide
/-- R78: a beacon line and a sweep line as steps. -/
theorem test_script_lines :
    (Line.beacon 0 0 0 0 0 0 true).acts cfgT =
      [.irq, .waitTake, .recv (.frame beacon), .write .puFlags 0, .endDispatch, .beaconCheck] ∧
    scriptActs cfgT [.sweep, .start 1, .mon true true 7] =
      [.schedCheck, .schedCheck, .command .host 0x1001, .regWrite 0 3, .regWrite 1 7] := by decide

/-! ## Witnesses: states and operands that meet the hypotheses of the statements -/

def motorDispatching : State := { base with sync := .dispatch, frm := w1, pend := w1Writes }
def inKick (f : Frame) : State := { base with sync := .kick, frm := f }
/-- `due` with FAS about to check a beacon. -/
def dueInKick : State := { due with sync := .kick, frm := beacon }

theorem base_inv : base.Inv := invCheck_spec (by decide)
theorem recv_inv : ({ base with sync := .recv } : State).Inv := invCheck_spec (by decide)
theorem motorDispatching_inv : motorDispatching.Inv := invCheck_spec (by decide)
theorem motorDispatched_inv : ({ motorDispatching with pend := [] } : State).Inv := invCheck_spec (by decide)
theorem inKick_motor_inv : (inKick w1).Inv := invCheck_spec (by decide)
theorem inKick_beacon_inv : (inKick beacon).Inv := invCheck_spec (by decide)
theorem due_inv : due.Inv := invCheck_spec (by decide)
theorem dueInKick_inv : dueInKick.Inv := invCheck_spec (by decide)

/-- DecodeEncodeRoundTrip: every instruction has well-formed operands, at the ends of their ranges. -/
theorem witness_wf_frames :
    ([ .drMotor ⟨false, 8#4, zeros⟩, .drMotor ⟨true, 0#4, w1Data⟩, .drPuflags ⟨false, 0#4, zeros⟩,
       .drBms0 ⟨true, 8#4, zeros⟩, .drBms2 ⟨true, 8#4, zeros⟩, .drBms7 ⟨true, 8#4, zeros⟩, .drBms8 ⟨true, 8#4, zeros⟩,
       .drBms500 ⟨true, 8#4, zeros⟩, .drIgnore 0#32 ⟨false, 8#4, zeros⟩, .drIgnore 0x7FF#32 ⟨false, 8#4, zeros⟩,
       .drIgnore 0x1FFFFFFF#32 ⟨true, 8#4, zeros⟩ ] : List Instr).all (fun i => i.wf cfgT) = true := by decide
theorem witness_wf_commands :
    ([.start 1, .stop 1, .reset 1, .kick 0, .check 0, .check 1] : List Instr).all (fun i => i.wf cfgT) = true := by decide
/-- The largest slot of the largest registry. -/
theorem witness_wf_slot_255 :
    ([.start 255, .stop 255, .reset 255, .check 255] : List Instr).all (fun i => i.wf { cfgT with nTimers := 256 }) =
      true := by decide

/-- EncodeDecodeRoundTrip. -/
theorem witness_decode_ok :
    decodeFrame cfgT (ext 0x1FFFFFFF 8 zeros) = .ok (.drIgnore 0x1FFFFFFF#32 ⟨true, 8#4, zeros⟩) ∧
    decodeCommand cfgT .scheduler 0x5001#16 = .ok (.check 1#8) := ⟨rfl, rfl⟩

/-- FamilyNeedsPrefixAndSubAddress: a family rule, the largest prefix a frame can match and the next, and prefix 0. -/
theorem witness_family :
    ((ext 0x18100500 8 zeros).wf = true ∧ select cfgT (ext 0x18100500 8 zeros) = .bms500) ∧
    ((ext 0x1FFF0008 8 zeros).wf = true ∧ select { cfgT with bmsPrefix := 0x1FFF } (ext 0x1FFF0008 8 zeros) = .bms8) ∧
    0x1FFF < ({ cfgT with bmsPrefix := 0x2000 } : Params).bmsPrefix.toNat ∧
    [7, 0, 2, 8, 0x500].all (fun n => (std n 8 zeros).wf && (std n 8 zeros).id.toNat == n) = true := by decide

/-- ReservedCommandsRefused and CommandReasonIsFirstInOrder: a word for each clause, at the ends of its range. -/
theorem witness_reserved_commands :
    ReservedCommand cfgT .host 0x0FFF#16 ∧ ReservedCommand cfgT .host 0x6000#16 ∧ ReservedCommand cfgT .host 0xF000#16 ∧
    ReservedCommand cfgT .host 0x1101#16 ∧ ReservedCommand cfgT .host 0x1002#16 ∧ ReservedCommand cfgT .fas 0x4001#16 ∧
    ReservedCommand cfgT .host 0x4000#16 ∧ ReservedCommand cfgT .host 0x5001#16 ∧
    ReservedCommand cfgT .host 0x3000#16 := by
  refine ⟨.inl ?_, .inl ?_, .inl ?_, .inr (.inl ?_), .inr (.inr (.inl ?_)), .inr (.inr (.inr (.inl ⟨?_, .inl ?_⟩))),
    .inr (.inr (.inr (.inl ⟨?_, .inr ?_⟩))), .inr (.inr (.inr (.inr (.inl ⟨?_, ?_⟩)))),
    .inr (.inr (.inr (.inr (.inr ⟨?_, ?_, ?_⟩))))⟩ <;> decide

/-- MotorRuleResult: decodable, with a sentinel and without one. -/
theorem witness_motor :
    ((w1.body.withId 6#32).wf = true ∧ (base.cfg.ideQualified = true → w1.body.ide = false)) ∧
    SentinelIn (bytes 0 0 0 0 0 0 0 0xFF) ∧ SentinelIn (bytes 0xFF 0 0 0 0 0 0 0) ∧ ¬ SentinelIn w1Data := by
  refine ⟨by decide, ⟨7, by decide⟩, ⟨0, by decide⟩, ?_⟩
  rintro ⟨i, hi, h⟩
  interval_cases i <;> revert h <;> decide
/-- PuflagsRuleResult. -/
theorem witness_puflags :
    (beacon.body.withId 7#32).wf = true ∧ (base.cfg.ideQualified = true → beacon.body.ide = false) := by decide
/-- Bms0RuleResult to Bms500RuleResult, the last in both variants. -/
theorem witness_bms :
    configOk base.cfg = true ∧
    configOk { cfgT with socVariant := .soc2bCpct, layout := { Layout.placeholder with soc := [6, 7] } } = true ∧
    ([.drBms0 ⟨true, 8#4, zeros⟩, .drBms2 ⟨true, 8#4, zeros⟩, .drBms7 ⟨true, 8#4, zeros⟩, .drBms8 ⟨true, 8#4, zeros⟩,
      .drBms500 ⟨true, 8#4, zeros⟩] : List Instr).all (fun i => i.wf base.cfg) = true := by decide
/-- IgnoreRuleResult. -/
theorem witness_ignore :
    unknown.wf = true ∧ ¬ (unknown.id.toNat = 6 ∨ unknown.id.toNat = 7) ∧
    ¬ ∃ sub ∈ [0, 2, 7, 8, 0x500], unknown.id.toNat = 65536 * base.cfg.bmsPrefix.toNat + sub := by decide
/-- RuleValuesFitTheirFields and ReceiveEntersDispatchWithRuleAnswer. -/
theorem witness_receive :
    configOk base.cfg = true ∧ w1.wf = true ∧ dispatchOf base.cfg w1 = .ok (.written, w1Writes) := ⟨by decide, by decide, rfl⟩
/-- ReceiveWithoutFrame: each way not to be well formed, at its boundary. -/
theorem witness_bad_frames :
    8 < (std 6 9 zeros).dlc.toNat ∧ ((std 0x800 8 zeros).ide = false ∧ 2 ^ 11 ≤ (std 0x800 8 zeros).id.toNat) ∧
    ((ext 0x20000000 8 zeros).ide = true ∧ 2 ^ 29 ≤ (ext 0x20000000 8 zeros).id.toNat) := by decide

/-- StartResult, StopResult, ResetCommandResult. -/
theorem witness_owner_commands :
    (base.tmr[(1#8).toNat]? = some (slot1 false 0) ∧ (1#8).toNat ≠ base.cfg.actSlot ∧ (1#8).toNat < base.cfg.nTimers) ∧
    (base.tmr[(0#8).toNat]? = some (slot0 false 0) ∧ (0#8).toNat = base.cfg.actSlot ∧ (0#8).toNat < base.cfg.nTimers) := by
  decide
/-- KickResult, Off and On. -/
theorem witness_kick :
    (base.tmr[(0#8).toNat]? = some (slot0 false 0) ∧ (0#8).toNat = base.cfg.actSlot) ∧
    (due.tmr[(0#8).toNat]? = some (slot0 true 0) ∧ (0#8).toNat = due.cfg.actSlot) := by decide
/-- CheckResult: stopped, one tick early, expired exactly, with each kind of callback. -/
theorem witness_check :
    base.tmr[(1#8).toNat]? = some (slot1 false 0) ∧
    ¬ (100 ≤ (99 + 2 ^ 32 - (0#32).toNat) % 2 ^ 32) ∧ 100 ≤ (100 + 2 ^ 32 - (0#32).toNat) % 2 ^ 32 ∧
    (timers (slot0 true 0) (slot1 true 3100) 3200).tmr[(1#8).toNat]? = some (slot1 true 3100) ∧ (slot1 true 3100).cb ≠ 1#4 ∧
    ((slot0 true 0).running = true ∧
      (slot0 true 0).timeout.toNat ≤ (due.now.toNat + 2 ^ 32 - (slot0 true 0).lastReset.toNat) % 2 ^ 32 ∧
      (slot0 true 0).cb = 1#4) := by decide
/-- CommandsRefusedOffTheirSlots: the Activity Watchdog's slot, another, and one past the registry. -/
theorem witness_off_slots :
    ((0#8).toNat = base.cfg.actSlot ∧ (0#8).toNat < base.tmr.length) ∧ (1#8).toNat ≠ base.cfg.actSlot ∧
    base.tmr.length ≤ (2#8).toNat := by decide

/-- BeaconAgainstExpiry. -/
theorem witness_race :
    dueInKick.Inv ∧ dueInKick.phase = .run ∧ dueInKick.sync = .kick ∧ isBeacon dueInKick.cfg dueInKick.frm = true ∧
    dueInKick.schIdx.toNat = dueInKick.cfg.actSlot ∧ dueInKick.tmr[dueInKick.cfg.actSlot]? = some (slot0 true 0) ∧
    expired dueInKick.now (slot0 true 0) = true := ⟨dueInKick_inv, by decide⟩

/-- The Off transition as one step: OffTransitionNeverEarly, ActivityTransitionsAreTheTables, ConfigurationReadOnlyInRunPhase. -/
theorem witness_step_off : ∃ t, step { due with script := [.schedCheck] } = .next t ∧ t.phase = .run ∧
    stoppedCount due.evh < stoppedCount t.evh ∧ due.isOn = true ∧ t.isOn = false := ⟨_, rfl, by decide⟩
theorem witness_step_off_inv :
    ({ due with script := [.schedCheck] } : State).Inv ∧ due.tmr[due.cfg.actSlot]? = some (slot0 true 0) :=
  ⟨invCheck_spec (by decide), by decide⟩
/-- The On transition and a kick that moves `LAST_RESET`, as one step. -/
theorem witness_step_on : ∃ t, step { inKick beacon with script := [.beaconCheck], now := 5#32 } = .next t ∧
    t.phase = .run ∧ base.isOn = false ∧ t.isOn = true ∧ t.tmr[0]? = some (slot0 true 5) := ⟨_, rfl, by decide⟩
theorem witness_step_on_inv : ({ inKick beacon with script := [.beaconCheck], now := 5#32 } : State).Inv :=
  invCheck_spec (by decide)
/-- A step that leaves the Activity Watchdog as it is. -/
theorem witness_step_same : ∃ t, step { base with script := [.tick] } = .next t ∧ base.isOn = t.isOn := ⟨_, rfl, by decide⟩

/-- TimeBaseTicks: a step that is no tick. -/
theorem witness_not_tick : ∃ t, perform .irq base = .next t := ⟨_, rfl⟩
/-- WritesThenEndOfDispatch: with a write pending and with none. -/
theorem witness_dispatching :
    (motorDispatching.Inv ∧ motorDispatching.phase = .run ∧ motorDispatching.sync = .dispatch ∧
      (Field.dcCurr, (50 : Int)) ∈ motorDispatching.pend ∧ (Field.dcCurr, (51 : Int)) ∉ motorDispatching.pend) ∧
    (({ motorDispatching with pend := [] } : State).Inv ∧ motorDispatching.sync = .dispatch) :=
  ⟨⟨motorDispatching_inv, by decide⟩, motorDispatched_inv, by decide⟩
/-- BeaconCheckKicksOnce: on a beacon, Off and On, and on another frame. -/
theorem witness_beacon_check :
    ((inKick beacon).Inv ∧ (inKick beacon).sync = .kick ∧ (inKick beacon).frm.id.toNat = 7 ∧
      ((inKick beacon).cfg.ideQualified = true → (inKick beacon).frm.ide = false)) ∧
    (dueInKick.Inv ∧ dueInKick.frm.id.toNat = 7) ∧
    ((inKick w1).Inv ∧ (inKick w1).sync = .kick ∧ ¬ (inKick w1).frm.id.toNat = 7) :=
  ⟨⟨inKick_beacon_inv, by decide⟩, ⟨dueInKick_inv, by decide⟩, inKick_motor_inv, by decide⟩
/-- SchedulerStepAlwaysTaken, SweepChecksEverySlotInOrder. -/
theorem witness_scheduler :
    due.Inv ∧ due.phase = .run ∧ due.schIdx = 0#8 ∧ sweepActs due.cfg = [.schedCheck, .schedCheck] :=
  ⟨due_inv, by decide⟩
theorem witness_sweep_inv : ({ due with script := sweepActs due.cfg ++ [.tick] } : State).Inv := invCheck_spec (by decide)
/-- FasNeverDeadlocks: each state of FAS, in both receive modes. -/
theorem witness_fas :
    (base.Inv ∧ base.sync = .wait ∧ base.cfg.rxMode = .irq) ∧
    (({ base with cfg := { cfgT with rxMode := .poll } } : State).Inv) ∧
    ({ base with sync := .recv } : State).Inv ∧ motorDispatching.pend ≠ [] :=
  ⟨⟨base_inv, by decide⟩, invCheck_spec (by decide), recv_inv, by decide⟩

/-- The run in which the scheduler checks its two stopped slots in turn, forever. -/
def sweeping (n : Nat) : State := { base with schIdx := BitVec.ofNat 8 (n % 2) }

/-- EverySlotCheckedInfinitelyOften. -/
theorem witness_sweeping :
    IsRun sweeping (fun _ => .schedCheck) ∧ FairScheduler sweeping (fun _ => .schedCheck) ∧ (sweeping 0).Inv ∧
    (sweeping 0).phase = .run ∧ (∀ _ : Nat, isRestart .schedCheck = false) ∧ 1 < (sweeping 0).cfg.nTimers := by
  refine ⟨fun n => ⟨rfl, ?_⟩, fun n _ => ⟨n, le_refl n, rfl⟩, invCheck_spec (by decide), rfl, fun _ => rfl, by decide⟩
  rcases Nat.mod_two_eq_zero_or_one n with h | h
  · have h' : (n + 1) % 2 = 1 := by omega
    simp only [sweeping, h, h']; rfl
  · have h' : (n + 1) % 2 = 0 := by omega
    simp only [sweeping, h, h']; rfl

/-- The run in which FAS times out and finds no frame, forever. -/
def polling (n : Nat) : State := if n % 2 = 0 then base else { base with sync := .recv }
def pollingAct (n : Nat) : Act := if n % 2 = 0 then .waitTimeout else .recv .none

/-- FasAlwaysReturnsToWait. -/
theorem witness_polling :
    IsRun polling pollingAct ∧ FairFas polling pollingAct ∧ (polling 0).Inv ∧ (polling 0).phase = .run ∧
    ∀ n, isRestart (pollingAct n) = false := by
  refine ⟨fun n => ?_, fun n _ => ⟨n, le_refl n, ?_⟩, base_inv, rfl, fun n => ?_⟩
  · rcases Nat.mod_two_eq_zero_or_one n with h | h
    · have h' : (n + 1) % 2 = 1 := by omega
      simp only [polling, pollingAct, h, h']; exact ⟨rfl, rfl⟩
    · have h' : (n + 1) % 2 = 0 := by omega
      simp only [polling, pollingAct, h, h']; exact ⟨rfl, rfl⟩
  · unfold pollingAct; split <;> rfl
  · unfold pollingAct; split <;> rfl

/-- ReadReturnsMostRecentWrite: the ends of a signed range, with a later write of another field. -/
theorem witness_field_values :
    fieldFits .motorRpm (-32768) = true ∧ fieldFits .motorRpm 32767 = true ∧ fieldFits .bmsProtFlags 0xFFFFFFFF = true ∧
    ∀ x ∈ [(Field.dcVolt, (5 : Int))], x.1 ≠ Field.motorRpm := by decide
/-- ReadReturnsField: the last field answers, the next index is refused. -/
theorem test_read_24_and_25 :
    (nextOf (perform (.read 24) { base with record := { Rec.zero with groundSpeed := -7 } })).map State.reply =
      some (some (.value (-7))) ∧
    refusalOf (perform (.read 25) base) = some .badField := by decide
/-- PendHasItsOwnStatusRead: a pending write shows in its own read and in no register of the map. -/
theorem test_pend_read :
    (nextOf (takeAct .pendRead { motorDispatching with pend := [(.dcCurr, 50)] })).map State.reply =
      some (some (.pending [(.dcCurr, 50)])) ∧
    (nextOf (perform (.regRead 0x007) motorDispatching)).map State.reply = some (some (.value 0)) := by decide
theorem witness_pend_read : motorDispatching.phase = .run ∧ ∃ t, perform (.read 0) motorDispatching = .next t :=
  ⟨by decide, _, rfl⟩
/-- GroundSpeedTakesValuesOfItsType: each kind of type at the ends of its range (R10), and the least widths. -/
theorem test_ground_speed_types :
    ([(ValueType.u 16, 0), (.u 16, 65535), (.s 16, -32768), (.s 16, 32767), (.s 1, -1), (.u 0, 0), (.int, -65536)]
        : List (ValueType × Int)).all (fun x => enabled (.setGroundSpeed x.2)
          { base with cfg := { cfgT with groundSpeedT := x.1 } }) = true ∧
    ([(ValueType.u 16, -1), (.u 16, 65536), (.s 16, -32769), (.s 16, 32768), (.s 1, 1), (.u 0, 1)]
        : List (ValueType × Int)).all (fun x => !enabled (.setGroundSpeed x.2)
          { base with cfg := { cfgT with groundSpeedT := x.1 } }) = true := by decide
theorem witness_ground_speed :
    base.phase = .run ∧ base.cfg.groundSpeedT = .int ∧
    ({ cfgT with groundSpeedT := .u 16 } : Params).groundSpeedT = .u 16 ∧
    (1 ≤ 16 ∧ ({ cfgT with groundSpeedT := .s 16 } : Params).groundSpeedT = .s 16) := by decide
/-- The sweep's conclusion for the Activity Watchdog, expired and not. -/
theorem witness_sweep_sink :
    due.tmr[due.cfg.actSlot]? = some (slot0 true 0) ∧
    (slot0 true 0).timeout.toNat ≤ (due.now - (slot0 true 0).lastReset).toNat ∧
    ¬ (slot0 true 0).timeout.toNat ≤ (3199#32 - (slot0 true 0).lastReset).toNat := by decide
/-- T25 from any state: FAS's KICK of another slot, in `S_WAIT` and in `S_KICK` on a beacon; and R76's order of reasons. -/
theorem test_t25_any_state :
    refusalOf (step { base with script := [.command .fas 0x4001] }) = some (.badCommand .slot) ∧
    refusalOf (step { inKick beacon with script := [.command .fas 0x4001] }) = some (.badCommand .slot) ∧
    refusalOf (step { base with script := [.command .fas 0x0001] }) = some (.badCommand .op) ∧
    refusalOf (step { base with script := [.command .fas 0x5001] }) = some (.badCommand .issuer) := by decide
/-- ReservedWordsRefusedAtEveryStep: FAS's reserved word, an owner's command from FAS, and FAS's good word too early. -/
theorem witness_words_at_step :
    (base.phase = .run ∧ ReservedCommand base.cfg .fas 0x4001#16) ∧
    (1 ≤ (0x1001#16).toNat / 4096 ∧ (0x3001#16).toNat / 4096 ≤ 3 ∧ Issuer.fas ≠ .host) ∧
    (¬ ReservedCommand base.cfg .fas 0x4000#16 ∧ 4 ≤ (0x4000#16).toNat / 4096 ∧
      ¬ (base.sync = .kick ∧ isBeacon base.cfg base.frm = true)) ∧
    refusalOf (step { base with script := [.command .fas 0x4000] }) = some .notEnabled := by
  refine ⟨⟨by decide, .inr (.inr (.inr (.inl ⟨by decide, .inl (by decide)⟩)))⟩, by decide, ⟨?_, by decide, by decide⟩,
    by decide⟩
  unfold ReservedCommand; decide
/-- EachFieldHasOneWriter: a write of each writer. -/
theorem witness_writers :
    (enabled (.write .dcCurr 50) motorDispatching = true ∧ ∃ t, perform (.write .dcCurr 50) motorDispatching = .next t ∧
      t.record.get .dcCurr ≠ motorDispatching.record.get .dcCurr) ∧
    (enabled (.setGroundSpeed 7) base = true ∧ ∃ t, perform (.setGroundSpeed 7) base = .next t ∧
      t.record.get .groundSpeed ≠ base.record.get .groundSpeed) :=
  ⟨⟨by decide, _, rfl, by decide⟩, by decide, _, rfl, by decide⟩
/-- FrameCompletesInAnyWriteOrder: W1's writes in the reverse of their order, and a beacon. -/
theorem witness_frame_script :
    (dispatchOf cfgT w1 = .ok (.written, w1Writes) ∧ w1Writes.reverse.Perm w1Writes ∧
      ({ base with
          sync := .recv
          script := .recv (.frame w1) :: (writeActs w1Writes.reverse ++ [.endDispatch, .beaconCheck]) } : State).Inv ∧
      isBeacon cfgT w1 = false) ∧
    (beacon.wf = true ∧ dispatchOf cfgT beacon = .ok (.written, [(.puFlags, 0)]) ∧ isBeacon cfgT beacon = true) :=
  ⟨⟨rfl, List.reverse_perm _, invCheck_spec (by decide), by decide⟩, by decide, rfl, by decide⟩
/-- ReaderSeesSubsetOfFrameWrites: two of five writes done (program P4). -/
theorem witness_torn_read :
    ({ motorDispatching with script := writeActs [(.dcCurr, 50), (.motorTemp, 20)] ++ [.read 0] } : State).Inv ∧
    ([(.dcCurr, 50), (.motorTemp, 20)] ++ [(.invTemp, 20), (.motorRpm, 10), (.dcVolt, 100)] : List (Field × Int)).Perm
      motorDispatching.pend :=
  ⟨invCheck_spec (by decide), by decide⟩

/-- RegisterMapReads and HostRegisterAccess. -/
theorem witness_registers :
    due.wakeCnt < 2 ^ 32 ∧ due.tmr[1]? = some (slot1 false 0) ∧ (3#32).toNat < 4 ∧ 4 ≤ (4#32).toNat ∧
    (0x1FFFFFFF#32).toNat < 2 ^ 29 ∧ 2 ^ 29 ≤ (0x20000000#32).toNat := by decide
/-- ConfigurationChecked: a table of the registry's length, checked and failing. -/
theorem witness_config :
    cfgT.tmrInit.length = cfgT.nTimers ∧ State.reset.phase = .config ∧ configOk cfgT = true ∧
    ({ cfgT with wakeMax := 0 } : Params).tmrInit.length = ({ cfgT with wakeMax := 0 } : Params).nTimers ∧
    ¬ ConfigWellFormed { cfgT with wakeMax := 0 } := by
  refine ⟨by decide, by decide, by decide, by decide, fun h => ?_⟩
  have h1 : 1 ≤ 0 := h.2.2.2.2.2.2
  omega
/-- NothingRunsBeforeStartup: each step of the boot order. -/
theorem witness_startup :
    (State.reset.phase ≠ .run ∧ enabled (.takeConfig cfgT) State.reset = true) ∧
    ((State.reset.configured cfgT).phase ≠ .run ∧ enabled (.configure true) (State.reset.configured cfgT) = true) := by
  decide
/-- StepRunsDecodedInstruction: a receive, a host command, FAS's kick step and the scheduler's check. -/
theorem witness_decoded :
    decodeFrame base.cfg w1 = .ok (.drMotor w1.body) ∧ decodeCommand base.cfg .host 0x1001#16 = .ok (.start 1) ∧
    (isBeacon (inKick beacon).cfg (inKick beacon).frm = true ∧
      decodeCommand base.cfg .fas (kickWord base.cfg) = .ok (.kick 0) ∧ ∃ u, exec (.kick 0) (inKick beacon) = .next u) ∧
    (decodeCommand base.cfg .scheduler (checkWord base.schIdx) = .ok (.check 0) ∧ ∃ u, exec (.check 0) base = .next u) :=
  ⟨rfl, rfl, ⟨by decide, rfl, _, rfl⟩, rfl, _, rfl⟩
/-- BeaconCheckAfterAllWrites: the step into each of the three states. -/
theorem witness_cycle :
    (∃ t, step { motorDispatching with pend := [], script := [.endDispatch] } = .next t ∧ t.sync = .kick) ∧
    (∃ t, step { base with script := [.waitTimeout] } = .next t ∧ t.sync = .recv) ∧
    (∃ t, step { base with sync := .recv, script := [.recv (.frame w1)] } = .next t ∧ t.sync = .dispatch) :=
  ⟨⟨_, rfl, by decide⟩, ⟨_, rfl, by decide⟩, _, rfl, by decide⟩

end Sys2Proof.Tests
end

/-! ## Settled statements of `00_scope.md`: the configuration checks, the decoded instruction of a step, and
`GROUND_SPEED` -/

namespace Sys2Proof.Machine

/-! ### The configuration checks of R8, item by item -/

/-- One list of the layout (R73). -/
theorem layoutListOk_iff {os : List Nat} {n : Nat} : layoutListOk (os, n) = true ↔ ListWellFormed os n := by
  simp [layoutListOk, ListWellFormed, Nat.lt_succ_iff, and_assoc]

/-- The whole layout (R73), with the length of `soc` that `SOC_VARIANT` asks for (R72). -/
theorem layoutOk_iff {l : Layout} {v : SocVariant} : layoutOk l v = true ↔ LayoutWellFormed l v := by
  cases v <;> simp [layoutOk, layoutLists, LayoutWellFormed, layoutListOk_iff]

/-- R8 item 1, less the table's length (log entry 6). -/
theorem registryOk_iff {p : Params} (hlen : p.tmrInit.length = p.nTimers) :
    registryOk p = true ↔ 1 ≤ p.nTimers ∧ p.nTimers ≤ 256 ∧ p.actSlot < p.nTimers := by
  simp [registryOk, hlen, and_assoc]

/-- R8 item 2. -/
theorem timeoutsOk_iff {p : Params} : timeoutsOk p = true ↔ ∀ t ∈ p.tmrInit, 1 ≤ t.timeout.toNat := by
  have hne : ∀ x : BitVec 32, x ≠ 0#32 ↔ 1 ≤ x.toNat := fun x => by
    rw [Ne, ← BitVec.toNat_inj, BitVec.toNat_ofNat]; omega
  simp [timeoutsOk, hne]

/-- R8 item 3. -/
theorem actSlotOk_iff {p : Params} :
    actSlotOk p = true ↔
      ∃ t, p.tmrInit[p.actSlot]? = some t ∧ t.timeout = p.actTimeout ∧ t.repeats = false ∧ t.cb = 1#4 := by
  simp only [actSlotOk, Config.cbActivityStopped, beq_iff_eq]
  constructor
  · intro h
    exact ⟨_, h, rfl, rfl, rfl⟩
  · rintro ⟨⟨_, _, _⟩, h, rfl, rfl, rfl⟩
    exact h

/-- R8 item 4: for a table with one entry a slot, the slots of the registry are the table's entries. -/
theorem callbacksOk_iff {p : Params} (hlen : p.tmrInit.length = p.nTimers) :
    callbacksOk p = true ↔ ∀ k t, p.tmrInit[k]? = some t → k ≠ p.actSlot → t.cb ≠ 1#4 := by
  simp only [callbacksOk, Config.cbActivityStopped, List.all_eq_true, List.mem_range, Bool.or_eq_true, beq_iff_eq]
  constructor
  · intro h k t ht hk
    have hlt : k < p.nTimers := hlen ▸ (List.getElem?_eq_some_iff.mp ht).1
    simpa [ht] using (h k hlt).resolve_left hk
  · intro h k _
    by_cases hk : k = p.actSlot
    · exact .inl hk
    · right
      cases ht : p.tmrInit[k]? with
      | none => rfl
      | some t => simpa using h k t ht hk

/-- R8 item 6. -/
theorem boundsOk_iff {p : Params} :
    boundsOk p = true ↔ (p.bmsTempBias = 40 ∨ p.bmsTempBias = 100) ∧ 1 ≤ p.wakeMax := by
  simp [boundsOk]

/-- R8 whole, for a table with one entry a slot. -/
theorem configOk_iff {p : Params} (hlen : p.tmrInit.length = p.nTimers) :
    configOk p = true ↔ ConfigWellFormed p := by
  simp only [configOk, ConfigWellFormed, Bool.and_eq_true, registryOk_iff hlen, timeoutsOk_iff, actSlotOk_iff,
    callbacksOk_iff hlen, layoutOk_iff, boundsOk_iff, and_assoc]

/-- In the configuration phase a scheduled configuration goes to startup step 2 (R149). -/
theorem takeAct_takeConfig {s : State} (p : Params) (h : s.phase = .config) :
    takeAct (.takeConfig p) s = takeConfig p s :=
  takeAct_enabled (by simp [enabled, h])

theorem takeConfig_ok {p : Params} (s : State) (h : configOk p = true) : takeConfig p s = .next (s.configured p) := by
  simp [takeConfig, h]

theorem takeConfig_refused {p : Params} (s : State) (h : ¬ configOk p = true) :
    takeConfig p s = .refused .badConfig := by
  simp [takeConfig, h]

/-- Settles O46: each of the six checks is its item of R8, and startup step 2 asks for all of them. -/
theorem configurationChecked : Obligations.ConfigurationChecked := by
  intro p hlen
  refine ⟨configOk_iff hlen, fun s hs => ⟨fun hwf => ?_, fun hwf => ?_⟩⟩ <;> rw [takeAct_takeConfig p hs]
  · exact ⟨_, takeConfig_ok s ((configOk_iff hlen).mpr hwf), State.configured_cfg s p⟩
  · exact takeConfig_refused s (mt (configOk_iff hlen).mp hwf)

/-! ### The instruction of a step -/

/-- A received frame that decodes is executed (R120). -/
theorem recv_frame_ok {f : Frame} {s : State} {i : Instr} (h : decodeFrame s.cfg f = .ok i) :
    recv (.frame f) s = exec i s := by
  simp only [recv, h]

/-- A command word that decodes is executed (R74 to R76). -/
theorem issue_ok {by_ : Issuer} {w : BitVec 16} {s : State} {i : Instr} (h : decodeCommand s.cfg by_ w = .ok i) :
    issue by_ w s = exec i s := by
  simp only [issue, h]

/-- FAS's kick step: its command, then the return to `S_WAIT` (R124). -/
theorem fasCommand_ok {w : BitVec 16} {s u : State} {i : Instr} (hd : decodeCommand s.cfg .fas w = .ok i)
    (hx : exec i s = .next u) : fasCommand w s = .next { u with sync := .wait } := by
  simp only [fasCommand, issue_ok hd, hx, andThen]

/-- The beacon check of a beacon is FAS's kick step with KICK `ACT_SLOT` (R124). -/
theorem beaconCheck_beacon_ok {s u : State} {i : Instr} (hb : isBeacon s.cfg s.frm = true)
    (hd : decodeCommand s.cfg .fas (kickWord s.cfg) = .ok i) (hx : exec i s = .next u) :
    beaconCheck s = .next { u with sync := .wait } := by
  rw [beaconCheck, if_pos hb, fasCommand_ok hd hx]

/-- The scheduler's check: CHECK `SCH_IDX`, then the advance (R105). -/
theorem schedCheck_ok {s u : State} {i : Instr} (hd : decodeCommand s.cfg .scheduler (checkWord s.schIdx) = .ok i)
    (hx : exec i s = .next u) : schedCheck s = .next u.advance := by
  simp only [schedCheck, schedCommand, hd, if_true, hx, andThen]

/-- A step whose scheduled act is enabled once the act is off the schedule performs it. -/
theorem step_enabled {s : State} {a : Act} {rest : List Act} (h : s.script = a :: rest)
    (he : enabled a { s with script := rest } = true) : step s = perform a { s with script := rest } := by
  rw [step_scheduled h, takeAct_enabled he]

/-- Settles O54: on each of the four ways in, the step performs its act, and the act executes what the decoder gives. -/
theorem stepRunsDecodedInstruction : Obligations.StepRunsDecodedInstruction := by
  intro s rest i hrun
  refine ⟨fun f hsync hs hd => ?_, fun w hs hd => ?_, fun hsync hb hs hd u hx => ?_, fun hs hd u hx => ?_⟩ <;>
    rw [step_enabled hs (by simp [enabled, *])]
  · exact recv_frame_ok hd
  · exact issue_ok hd
  · exact beaconCheck_beacon_ok hb hd hx
  · exact schedCheck_ok hd hx

/-! ### `GROUND_SPEED` -/

/-- In the run phase the speed module may write the values of the configured type (R7, R19), and only these. -/
theorem enabled_setGroundSpeed {s : State} (v : Int) (h : s.phase = .run) :
    enabled (.setGroundSpeed v) s = typeHolds s.cfg.groundSpeedT v := by
  simp [enabled, h]

/-- A read of a field's index answers the field (R45). -/
theorem readField_idx (f : Field) (s : State) :
    readField (fieldIdx f) s = .next { s with reply := some (.value (s.record.get f)) } := by
  simp only [readField, fieldOfIdx_idx]

/-- Settles O57: the enabling is the type's range (R10), and the write and the read back are those of `REC[24]`. -/
theorem groundSpeedTakesValuesOfItsType : Obligations.GroundSpeedTakesValuesOfItsType := by
  intro s v hrun
  rw [enabled_setGroundSpeed v hrun]
  refine ⟨fun n ht => ?_, fun n hn ht => ?_, fun ht => ?_, _, rfl, rfl, readField_idx .groundSpeed _⟩ <;> rw [ht]
  · rw [typeHolds_u, Int.le_sub_one_iff]
  · obtain ⟨m, rfl⟩ : ∃ m, n = m + 1 := ⟨n - 1, by omega⟩
    rw [typeHolds_s, Nat.add_sub_cancel, Int.le_sub_one_iff]
  · exact typeHolds_int v

end Sys2Proof.Machine

/-! ## Settled statements of `10_state.md`: the invariant, what only one agent's step moves, the register map and the
host's port -/

namespace Sys2Proof.Machine

/-! ### The write set of a rule -/

/-- Extractors that each give a value that fits its field give the write set of their fields, in order (R70, R82). -/
theorem extractAll_fits {d : Payload} {xs : List Extractor}
    (h : ∀ x ∈ xs, ∃ v, extract x d = some v ∧ fieldFits x.dst v = true) :
    ∃ w, extractAll d xs = some w ∧ w.map Prod.fst = xs.map Extractor.dst ∧
      ∀ y ∈ w, fieldFits y.1 y.2 = true := by
  induction xs with
  | nil => exact ⟨[], rfl, rfl, by simp⟩
  | cons x xs ih =>
    obtain ⟨v, hv, hfit⟩ := h x (by simp)
    obtain ⟨w, hw, hdst, hfits⟩ := ih fun y hy => h y (by simp [hy])
    exact ⟨(x.dst, v) :: w, by simp [extractAll, hv, hw], by simp [hdst], by simpa [hfit] using hfits⟩

/-- A natural number in range fits an unsigned field (R10). -/
theorem fieldFits_unsigned {f : Field} {bits n : Nat} (hf : fieldType f = some (false, bits)) (hn : n < 2 ^ bits) :
    fieldFits f (n : Int) = true := by
  simp only [fieldFits, hf, Bool.and_eq_true, decide_eq_true_eq]
  exact ⟨Int.natCast_nonneg n, by exact_mod_cast hn⟩

/-- A number in range fits a signed 16-bit field (R10). -/
theorem fieldFits_signed16 {f : Field} {v : Int} (hf : fieldType f = some (true, 16)) (hv : -32768 ≤ v ∧ v < 32768) :
    fieldFits f v = true := by
  simp only [fieldFits, hf, Bool.and_eq_true, decide_eq_true_eq]
  exact hv

/-- An unsigned extractor with no bias fits a field at least as wide as its list. -/
theorem extract_fits_unsigned {d : Payload} {f : Field} {os : List Nat} {n bits : Nat}
    (hos : layoutListOk (os, n) = true) (hf : fieldType f = some (false, bits)) (hn : 8 * n ≤ bits := by decide) :
    ∃ v, extract ⟨f, os, false, 0⟩ d = some v ∧ fieldFits f v = true := by
  obtain ⟨hx, hlt⟩ := extract_unsigned_list (d := d) (f := f) (bias := 0) hos
  rw [Int.sub_zero] at hx
  exact ⟨_, hx, fieldFits_unsigned hf (hlt.trans_le (Nat.pow_le_pow_right (by decide) hn))⟩

/-- A one-byte temperature less its bias fits a signed 16-bit field (R82). -/
theorem extract_fits_biased {d : Payload} {f : Field} {os : List Nat} {bias : Int}
    (hos : layoutListOk (os, 1) = true) (hf : fieldType f = some (true, 16)) (hb : bias = 40 ∨ bias = 100) :
    ∃ v, extract ⟨f, os, false, bias⟩ d = some v ∧ fieldFits f v = true := by
  obtain ⟨hx, hlt⟩ := extract_unsigned_list (d := d) (f := f) (bias := bias) hos
  exact ⟨_, hx, fieldFits_signed16 hf (by omega)⟩

theorem signed16_bounds {n : Nat} (h : n < 65536) : -32768 ≤ signed16 n ∧ signed16 n < 32768 := by
  unfold signed16; split <;> omega

/-- A signed two-byte value fits a signed 16-bit field. -/
theorem extract_fits_signed {d : Payload} {f : Field} {os : List Nat}
    (hos : layoutListOk (os, 2) = true) (hf : fieldType f = some (true, 16)) :
    ∃ v, extract ⟨f, os, true, 0⟩ d = some v ∧ fieldFits f v = true := by
  obtain ⟨hx, hlt⟩ := extract_signed_pair (d := d) (f := f) hos
  exact ⟨_, hx, fieldFits_signed16 hf (signed16_bounds hlt)⟩

/-- A write set R82 and R83 allow: every value fits its field, and none is for `GROUND_SPEED`. -/
def WritesFit (w : List (Field × Int)) : Prop := ∀ x ∈ w, fieldFits x.1 x.2 = true ∧ x.1 ≠ .groundSpeed

/-- A rule given by extractors that each give a fitting value has a fitting write set. -/
theorem writtenBy_fits {d : Payload} {xs : List Extractor} (hg : .groundSpeed ∉ xs.map Extractor.dst)
    (h : ∀ x ∈ xs, ∃ v, extract x d = some v ∧ fieldFits x.dst v = true) :
    ∃ o w, writtenBy d xs = .ok (o, w) ∧ WritesFit w := by
  obtain ⟨w, hw, hdst, hfits⟩ := extractAll_fits h
  refine ⟨.written, w, by simp [writtenBy, hw], fun x hx => ⟨hfits x hx, fun hgs => hg ?_⟩⟩
  rw [← hdst, ← hgs]
  exact List.mem_map_of_mem hx

/-- R85's values: a byte less 40, a signed or an unsigned pair of bytes. -/
theorem motorWrites_fit (d : Payload) : WritesFit (motorWrites d) := by
  have temp (b : Byte) : -32768 ≤ zext b - Config.motorTempBias ∧ zext b - Config.motorTempBias < 32768 := by
    have := b.isLt
    unfold zext Config.motorTempBias
    omega
  have pair (a b : Byte) : -32768 ≤ sext16 (le16 a b) ∧ sext16 (le16 a b) < 32768 := by
    rw [sext16_le16]
    exact signed16_bounds (by have := a.isLt; have := b.isLt; omega)
  simp only [WritesFit, motorWrites, List.forall_mem_cons]
  exact ⟨⟨fieldFits_signed16 rfl (temp _), nofun⟩, ⟨fieldFits_signed16 rfl (temp _), nofun⟩,
    ⟨fieldFits_signed16 rfl (pair _ _), nofun⟩, ⟨fieldFits_unsigned rfl (le16 _ _).isLt, nofun⟩,
    ⟨fieldFits_signed16 rfl (pair _ _), nofun⟩, nofun⟩

theorem motorRule_fits (d : Payload) : ∃ o w, motorRule d = .ok (o, w) ∧ WritesFit w := by
  unfold motorRule
  split
  · exact ⟨_, _, rfl, by simp [WritesFit]⟩
  · exact ⟨_, _, rfl, motorWrites_fit d⟩

theorem puflagsRule_fits (d : Payload) : ∃ o w, puflagsRule d = .ok (o, w) ∧ WritesFit w := by
  refine ⟨_, _, rfl, ?_⟩
  simp only [WritesFit, List.forall_mem_cons]
  exact ⟨⟨fieldFits_unsigned rfl (le16 _ _).isLt, nofun⟩, nofun⟩

/-- R82 and R83: under a checked configuration every rule answers, with a fitting write set. -/
theorem runRule_fits {p : Params} (h : configOk p = true) (d : Payload) (r : Rule) :
    ∃ o w, runRule p d r = .ok (o, w) ∧ WritesFit w := by
  have hl := configOk_lists h
  have hb : p.bmsTempBias = 40 ∨ p.bmsTempBias = 100 := by
    simp only [configOk, Bool.and_eq_true, boundsOk_iff] at h
    exact h.2.1
  simp only [layoutLists, List.forall_mem_cons] at hl
  obtain ⟨inFlags, outFlags, cellCount, chgState, chgDuration, lastErr, modTMin, modTMax, modTAvg, protFlags, redFlags,
    battStatus, cellTMin, cellTMax, cellTAvg, packCurr, packCharge, soc, -⟩ := hl
  cases r with
  | ignore => exact ⟨_, _, rfl, by simp [WritesFit]⟩
  | motor => exact motorRule_fits d
  | puflags => exact puflagsRule_fits d
  | bms0 =>
    refine writtenBy_fits (by simp [bms0Extractors]) ?_
    simp only [bms0Extractors, List.forall_mem_cons]
    exact ⟨extract_fits_unsigned inFlags rfl, extract_fits_unsigned outFlags rfl, extract_fits_unsigned cellCount rfl,
      extract_fits_unsigned chgState rfl, extract_fits_unsigned chgDuration rfl, extract_fits_unsigned lastErr rfl, nofun⟩
  | bms2 =>
    refine writtenBy_fits (by simp [bms2Extractors]) ?_
    simp only [bms2Extractors, List.forall_mem_cons]
    exact ⟨extract_fits_biased modTMin rfl hb, extract_fits_biased modTMax rfl hb, extract_fits_biased modTAvg rfl hb, nofun⟩
  | bms7 =>
    refine writtenBy_fits (by simp [bms7Extractors]) ?_
    simp only [bms7Extractors, List.forall_mem_cons]
    exact ⟨extract_fits_unsigned protFlags rfl, extract_fits_unsigned redFlags rfl, extract_fits_unsigned battStatus rfl,
      nofun⟩
  | bms8 =>
    refine writtenBy_fits (by simp [bms8Extractors]) ?_
    simp only [bms8Extractors, List.forall_mem_cons]
    exact ⟨extract_fits_biased cellTMin rfl hb, extract_fits_biased cellTMax rfl hb, extract_fits_biased cellTAvg rfl hb,
      nofun⟩
  | bms500 =>
    refine writtenBy_fits (by simp [bms500Extractors]) ?_
    simp only [bms500Extractors, List.forall_mem_cons]
    refine ⟨extract_fits_signed packCurr rfl, extract_fits_unsigned packCharge rfl, ?_, nofun⟩
    cases hv : p.socVariant with
    | soc1bPct => rw [hv] at soc; exact extract_fits_unsigned soc rfl
    | soc2bCpct => rw [hv] at soc; exact extract_fits_unsigned soc rfl

/-- What a checked configuration's dispatch answers is a fitting write set. -/
theorem writesFit_of_dispatchOf {p : Params} (h : configOk p = true) {f : Frame} {o : DispOutcome}
    {w : List (Field × Int)} (hd : dispatchOf p f = .ok (o, w)) : WritesFit w := by
  obtain ⟨o', w', hr, hfit⟩ := runRule_fits h f.data (select p f)
  cases hd.symm.trans hr
  exact hfit

/-! ### What the agents' steps do -/

/-- The instruction of the rule a frame selects is the receive of that frame with the rule's answer (R80, R120). -/
theorem exec_selected (s : State) (f : Frame) :
    exec ((select s.cfg f).instr f) s = receiveFrame (select s.cfg f) f (dispatchOf s.cfg f) s := by
  have body {b : Bool} {x : BitVec 32} (h : (b && f.id == x) = true) : f.body.withId x = f :=
    Frame.body_withId (beq_iff_eq.mp (Bool.and_elim_right h))
  rw [dispatchOf, select_chain]
  split_ifs with h1 h2 h3 h4 h5 h6 h7
  · rw [Rule.instr, exec_drMotor, Config.motorId, body h1]; rfl
  · rw [Rule.instr, exec_drPuflags, Config.beaconId, body h2]; rfl
  · rw [Rule.instr, exec_drBms0, familyKey, ← Params.bmsId, body h3]; rfl
  · rw [Rule.instr, exec_drBms2, familyKey, ← Params.bmsId, body h4]; rfl
  · rw [Rule.instr, exec_drBms7, familyKey, ← Params.bmsId, body h5]; rfl
  · rw [Rule.instr, exec_drBms8, familyKey, ← Params.bmsId, body h6]; rfl
  · rw [Rule.instr, exec_drBms500, familyKey, ← Params.bmsId, body h7]; rfl
  · rfl

/-- What a receive can do (R120): enter the dispatch of a well-formed frame, or go back to `S_WAIT`, with a fault logged
after an error. -/
theorem recv_next {a : Answer} {s t : State} (h : recv a s = .next t) :
    (∃ f o w, f.wf = true ∧ dispatchOf s.cfg f = .ok (o, w) ∧ t = s.enterDispatch f (select s.cfg f) o w) ∨
      ∃ es, (es = [] ∨ es = [.transportFault]) ∧ t = { s.emit es with sync := .wait } := by
  cases a with
  | frame f =>
    left
    by_cases hwf : f.wf = true
    · rw [recv_frame_ok (if_pos hwf), exec_selected] at h
      obtain ⟨o, w, hd, -, rfl⟩ := receiveFrame_next h
      exact ⟨f, o, w, hwf, hd, rfl⟩
    · simp [recv, decodeFrame, hwf] at h
  | none => cases h; exact .inr ⟨[], .inl rfl, by simp [State.emit]⟩
  | error => cases h; exact .inr ⟨_, .inr rfl, rfl⟩

/-- What the giver of a command does in the same step: FAS goes back to `S_WAIT` (R124), the scheduler takes the next
index (R105). -/
def State.afterCommand (s : State) : Issuer → State
  | .host => s
  | .fas => { s with sync := .wait }
  | .scheduler => s.advance

/-- A command step executes the word's instruction, then its giver's own part. -/
theorem command_next {by_ : Issuer} {w : BitVec 16} {s t : State} (h : command by_ w s = .next t) :
    ∃ i u, decodeCommand s.cfg by_ w = .ok i ∧ exec i s = .next u ∧ t = u.afterCommand by_ := by
  cases by_ with
  | host =>
    obtain ⟨i, hd, hx⟩ := issue_next h
    exact ⟨i, t, hd, hx, rfl⟩
  | fas =>
    obtain ⟨u, hu, rfl⟩ := andThen_next h
    obtain ⟨i, hd, hx⟩ := issue_next hu
    exact ⟨i, u, hd, hx, rfl⟩
  | scheduler =>
    obtain ⟨i, u, hd, -, hx, rfl⟩ := schedCommand_next h
    exact ⟨i, u, hd, hx, rfl⟩

/-- The beacon check is FAS's KICK on a beacon, and only the return to `S_WAIT` on any other frame (R124). -/
theorem beaconCheck_next {s t : State} (h : beaconCheck s = .next t) :
    command .fas (kickWord s.cfg) s = .next t ∨ t = { s with sync := .wait } := by
  unfold beaconCheck at h
  split at h
  · exact .inl h
  · cases h; exact .inr rfl

/-- What a host write can do (R34): set the monitor's fields. -/
theorem writeReg_next {idx : Nat} {v : BitVec 32} {s t : State} (h : writeReg idx v s = .next t) :
    ∃ en filt id, t = { s with monEn := en, monFilterEn := filt, monId := id } := by
  unfold writeReg at h
  split_ifs at h <;> cases h
  · exact ⟨_, _, s.monId, rfl⟩
  · exact ⟨s.monEn, s.monFilterEn, _, rfl⟩

/-- A read changes nothing but the port's answer (R45). -/
theorem readField_next {n : Nat} {s t : State} (h : readField n s = .next t) : ∃ r, t = { s with reply := some r } := by
  unfold readField at h
  split at h <;> cases h
  exact ⟨_, rfl⟩

theorem takeConfig_next {p : Params} {s t : State} (h : takeConfig p s = .next t) :
    configOk p = true ∧ t = s.configured p := by
  unfold takeConfig at h
  split at h <;> cases h
  exact ⟨‹_›, rfl⟩

/-! ### What a step keeps -/

/-- What a step leaves as it is, by what the step is: the frame of every step of an agent. -/
structure Keeps (a : Act) (s t : State) : Prop where
  /-- Only a tick moves `NOW` (R26). -/
  now : a ≠ .tick → t.now = s.now
  /-- Only FAS and the speed module write the record (R15). -/
  record : (∀ f v, a ≠ .write f v) → (∀ v, a ≠ .setGroundSpeed v) → t.record = s.record
  /-- Only startup step 2 sets the configuration and the slots' cfg fields (R22). -/
  config : (∀ p, a ≠ .takeConfig p) → t.cfg = s.cfg ∧ t.tmr.map Timer.init = s.tmr.map Timer.init

theorem Keeps.of_eq {a : Act} {s t : State} (hnow : t.now = s.now) (hrec : t.record = s.record) (hcfg : t.cfg = s.cfg)
    (hslots : t.tmr.map Timer.init = s.tmr.map Timer.init) : Keeps a s t :=
  ⟨fun _ => hnow, fun _ _ => hrec, fun _ => ⟨hcfg, hslots⟩⟩

theorem command_keeps {by_ : Issuer} {w : BitVec 16} {s t : State} (h : command by_ w s = .next t) (a : Act) :
    Keeps a s t := by
  obtain ⟨i, u, hd, hx, rfl⟩ := command_next h
  obtain ⟨-, hcfg, hrec, hslots, hnow, -⟩ := exec_command_frame hd hx
  cases by_ <;> exact .of_eq hnow hrec hcfg hslots

theorem perform_keeps {a : Act} {s t : State} (h : perform a s = .next t) (hr : ∀ d, a ≠ .restart d) : Keeps a s t := by
  cases a with
  | tick => cases h; exact ⟨fun hne => absurd rfl hne, fun _ _ => rfl, fun _ => ⟨rfl, rfl⟩⟩
  | write f v => cases h; exact ⟨fun _ => rfl, fun hne => absurd rfl (hne f v), fun _ => ⟨rfl, rfl⟩⟩
  | setGroundSpeed v => cases h; exact ⟨fun _ => rfl, fun _ hne => absurd rfl (hne v), fun _ => ⟨rfl, rfl⟩⟩
  | takeConfig p =>
    obtain ⟨-, rfl⟩ := takeConfig_next h
    exact ⟨fun _ => rfl, fun _ _ => rfl, fun hne => absurd rfl (hne p)⟩
  | restart d => exact absurd rfl (hr d)
  | recv ans => rcases recv_next h with ⟨f, o, w, -, -, rfl⟩ | ⟨es, -, rfl⟩ <;> exact .of_eq rfl rfl rfl rfl
  | beaconCheck =>
    rcases beaconCheck_next h with h | rfl
    · exact command_keeps h _
    · exact .of_eq rfl rfl rfl rfl
  | schedCheck => exact command_keeps (by_ := .scheduler) h _
  | command by_ w => exact command_keeps h _
  | read n => obtain ⟨r, rfl⟩ := readField_next h; exact .of_eq rfl rfl rfl rfl
  | regWrite idx v => obtain ⟨en, filt, id, rfl⟩ := writeReg_next h; exact .of_eq rfl rfl rfl rfl
  | irq | waitTake | waitTimeout | waitPoll | endDispatch | regRead _ | pendRead | setMode _ | setAutoUpdate _
  | configure _ => cases h; exact .of_eq rfl rfl rfl rfl

/-! ### The invariant's clauses, operation by operation -/

theorem State.isOn_of_slot {s : State} {x : Timer} (hx : s.tmr[s.cfg.actSlot]? = some x) : s.isOn = x.running := by
  simp [State.isOn, hx]

/-- The Activity Watchdog's slot is never re-armed, and its callback is its own (R8 item 3). -/
theorem State.Inv.repeats_cb_of_actSlot {s : State} (hi : s.Inv) {x : Timer} (hx : s.tmr[s.cfg.actSlot]? = some x) :
    x.repeats = false ∧ x.cb = Config.cbActivityStopped := by
  obtain ⟨y, hy, -, hrep, hcb⟩ := hi.actSlot
  cases hx.symm.trans hy
  exact ⟨hrep, hcb⟩

/-- A slot's update agrees with the activity log if the log says what the update makes of the On/Off state (R28). -/
theorem activity_setTimer {s : State} {k : Nat} {x y : Timer} (hx : s.tmr[k]? = some x)
    (h : activityOf s.evh = some (if k = s.cfg.actSlot then y.running else s.isOn)) :
    activityOf (s.setTimer k y).evh = some (s.setTimer k y).isOn := by
  rw [State.isOn_setTimer hx, ← h, State.setTimer_evh]

/-- START, STOP and RESET go to other slots than the Activity Watchdog's (R24). -/
theorem ownerCommand_activity {k : BitVec 8} {s t : State} {u : Timer → Timer} (hi : s.Inv)
    (h : ownerCommand k s u = .next t) : activityOf t.evh = some t.isOn := by
  obtain ⟨x, hx, hne, rfl⟩ := ownerCommand_next h
  exact activity_setTimer hx (by rw [if_neg hne, hi.activity])

/-- A kick starts the Activity Watchdog with STARTED when it is Off, and keeps it On when it is On (R103, R107). -/
theorem execKick_activity {k : BitVec 8} {s t : State} (hi : s.Inv) (h : execKick k s = .next t) :
    activityOf t.evh = some t.isOn := by
  obtain ⟨x, hx, hact, hcase⟩ := execKick_next h
  have hlog : activityOf s.evh = some x.running := by rw [hi.activity, State.isOn_of_slot (hact ▸ hx)]
  rcases hcase with ⟨-, rfl⟩ | ⟨hoff, rfl⟩
  · exact activity_setTimer hx (by rw [if_pos hact, hlog])
  · have hon := State.isOn_setTimer (y := { x with running := true, lastReset := s.now }) hx
    rw [if_pos hact] at hon
    rw [hoff] at hlog
    exact (activityOf_append _ hlog).trans (congrArg some hon.symm)

/-- A check stops the Activity Watchdog with STOPPED when it has expired, and no other slot's expiry is one (R104, R108). -/
theorem execCheck_activity {k : BitVec 8} {s t : State} (hi : s.Inv) (h : execCheck k s = .next t) :
    activityOf t.evh = some t.isOn := by
  obtain ⟨x, hx, ⟨hexp, rfl⟩ | ⟨-, rfl⟩⟩ := execCheck_next h
  · have hrun : x.running = true := (Bool.and_eq_true_iff.mp hexp).1
    rcases State.callback_cases s k x.cb with ⟨hcb, hs⟩ | ⟨hcb, hs⟩ <;> rw [hs]
    · have hact : k.toNat = s.cfg.actSlot := by_contra fun hne => hi.otherSlot hx hne hcb
      have hlog : activityOf s.evh = some true := by rw [hi.activity, State.isOn_of_slot (hact ▸ hx), hrun]
      have hoff : (afterExpiry s.now x).running = false := by
        simp [afterExpiry, (hi.repeats_cb_of_actSlot (hact ▸ hx)).1]
      refine activity_setTimer (s := s.activityStopped) hx ?_
      rw [State.activityStopped_cfg, if_pos hact, hoff, State.activityStopped_evh, activityOf_append _ hlog]
      cases s.cfg.gaugeRestOnStop <;> rfl
    · have hne : k.toNat ≠ s.cfg.actSlot := fun hact => hcb (hi.repeats_cb_of_actSlot (hact ▸ hx)).2
      refine activity_setTimer (s := s.emit _) hx ?_
      rw [State.emit_cfg, if_neg hne, State.emit_evh, activityOf_append _ hi.activity]
      rfl
  · exact hi.activity

/-- A timer command keeps the activity log in step with the Activity Watchdog (R111). -/
theorem exec_command_activity {by_ : Issuer} {w : BitVec 16} {i : Instr} {s t : State} (hi : s.Inv)
    (hd : decodeCommand s.cfg by_ w = .ok i) (hx : exec i s = .next t) : activityOf t.evh = some t.isOn := by
  rcases decodeCommand_ok hd with rfl | rfl | rfl | rfl | rfl
  · exact ownerCommand_activity hi hx
  · exact ownerCommand_activity hi hx
  · exact ownerCommand_activity hi hx
  · exact execKick_activity hi hx
  · exact execCheck_activity hi hx

/-- A timer command keeps the invariant in the run phase: it moves only the timers, the sink and the history (R99, R109). -/
theorem exec_command_inv {by_ : Issuer} {w : BitVec 16} {i : Instr} {s t : State} (hi : s.Inv) (hrun : s.phase = .run)
    (hd : decodeCommand s.cfg by_ w = .ok i) (hx : exec i s = .next t) : t.Inv := by
  obtain ⟨hphase, hcfg, hrec, hslots, -, hsync, hfrm, hpend, hwake, hsch, -⟩ := exec_command_frame hd hx
  exact
    { config := hcfg ▸ hi.config
      slots := by rw [hslots, hcfg, hi.slots]
      schIdx := by rw [hsch, hcfg]; exact hi.schIdx
      wake := by rw [hwake, hcfg]; exact hi.wake
      pendEmpty := by rw [hsync, hpend]; exact hi.pendEmpty
      pendOf := by rw [hsync, hcfg, hfrm, hpend]; exact hi.pendOf
      frame := by rw [hsync, hfrm]; exact hi.frame
      boot := fun hne => absurd (hphase.trans hrun) hne
      activity := exec_command_activity hi hd hx
      groundSpeed := by rw [hcfg, hrec]; exact hi.groundSpeed }

/-- FAS goes to `S_WAIT` or `S_RECV` from every state but `S_DISPATCH`. -/
theorem State.Inv.setSync {s : State} (hi : s.Inv) (hrun : s.phase = .run) (hs : s.sync ≠ .dispatch) {y : SyncState}
    (hy : y = .wait ∨ y = .recv) : ({ s with sync := y } : State).Inv :=
  { hi with
    pendEmpty := fun _ => hi.pendEmpty hs
    pendOf := by rintro rfl; simp at hy
    frame := by rcases hy with rfl | rfl <;> simp
    boot := fun hne => absurd hrun hne }

theorem State.Inv.advance {s : State} (hi : s.Inv) (hrun : s.phase = .run) : s.advance.Inv :=
  { hi with
    schIdx := by
      have hpos : 0 < s.cfg.nTimers := Nat.zero_lt_of_lt hi.schIdx
      rw [State.advance_schIdx, BitVec.toNat_ofNat]
      exact (Nat.mod_le _ _).trans_lt (Nat.mod_lt _ hpos)
    boot := fun hne => absurd hrun hne }

/-- Events that are no activity events leave the activity log as it is. -/
theorem activityOf_emit {s : State} (hi : s.Inv) {es : List Event} (hes : ∀ e ∈ es, ∀ b, activityStep b e = b) :
    activityOf (s.evh ++ es) = some s.isOn := by
  rw [activityOf_append es hi.activity]
  induction es with
  | nil => rfl
  | cons e es ih =>
    rw [List.foldl_cons, hes e (by simp)]
    exact ih fun x hx => hes x (by simp [hx])

theorem echoEvents_activity (s : State) (f : Frame) (r : Rule) (o : DispOutcome) :
    ∀ e ∈ s.echoEvents f r o, ∀ b, activityStep b e = b := by
  unfold State.echoEvents
  split <;> simp [activityStep]

/-- A frame that enters dispatch has its rule's write set pending (R120, R121). -/
theorem State.Inv.enterDispatch {s : State} (hi : s.Inv) (hrun : s.phase = .run) {f : Frame} {o : DispOutcome}
    {w : List (Field × Int)} (hwf : f.wf = true) (hd : dispatchOf s.cfg f = .ok (o, w)) (r : Rule) :
    (s.enterDispatch f r o w).Inv :=
  { hi with
    pendEmpty := fun hne => absurd rfl hne
    pendOf := fun _ => ⟨o, w, hd, List.Sublist.refl w⟩
    frame := fun _ => hwf
    boot := fun hne => absurd hrun hne
    activity := activityOf_emit hi (echoEvents_activity s f r o) }

/-- A pending write fits its field, which is not `GROUND_SPEED` (R82, R83). -/
theorem State.Inv.pend_fits {s : State} (hi : s.Inv) {f : Field} {v : Int} (h : (f, v) ∈ s.pend) :
    fieldFits f v = true ∧ f ≠ .groundSpeed := by
  have hs : s.sync = .dispatch := by_contra fun hne => by simp [hi.pendEmpty hne] at h
  obtain ⟨o, w, hd, hsub⟩ := hi.pendOf hs
  exact writesFit_of_dispatchOf hi.config hd (f, v) (hsub.subset h)

/-- A performed write leaves the rest of the frame's writes pending (R122). -/
theorem State.Inv.writeField {s : State} (hi : s.Inv) (hrun : s.phase = .run) {f : Field} {v : Int}
    (h : (f, v) ∈ s.pend) : ({ s with record := s.record.set f v, pend := s.pend.erase (f, v) } : State).Inv :=
  { hi with
    pendEmpty := fun hne => by simp [hi.pendEmpty hne]
    pendOf := fun hs => by
      obtain ⟨o, w, hd, hsub⟩ := hi.pendOf hs
      exact ⟨o, w, hd, (List.erase_sublist).trans hsub⟩
    boot := fun hne => absurd hrun hne
    groundSpeed := (congrArg _ (Rec.groundSpeed_set_ne (hi.pend_fits h).2)).trans hi.groundSpeed }

/-! ### The states in which nothing has run -/

/-- Slots as a configuration sets them are stopped, so the Activity Watchdog is Off (R22, R41). -/
theorem isOn_configured {s : State} (h : s.tmr = s.cfg.tmrInit.map TimerInit.slot) : s.isOn = false := by
  unfold State.isOn
  rw [h, List.getElem?_map]
  cases s.cfg.tmrInit[s.cfg.actSlot]? <;> rfl

/-- A configuration's slots have its cfg fields. -/
theorem map_init_slot (l : List TimerInit) : (l.map TimerInit.slot).map Timer.init = l := by
  simp [TimerInit.slot, Timer.init, Function.comp_def]

theorem one_le_nTimers {p : Params} (h : configOk p = true) : 1 ≤ p.nTimers := by
  simp only [configOk, registryOk, Bool.and_eq_true, decide_eq_true_eq] at h
  omega

/-- A state in which nothing has run, with a checked configuration, meets the invariant (R41, R149). -/
theorem State.Inv.of_fresh {s : State} (hcfg : configOk s.cfg = true) (htmr : s.tmr = s.cfg.tmrInit.map TimerInit.slot)
    (hpend : s.pend = []) (hboot : s.sync = .wait ∧ s.evh = [] ∧ s.wakeCnt = 0 ∧ s.schIdx = 0#8 ∧ s.record = Rec.zero) :
    s.Inv := by
  have ⟨hsync, hevh, hwake, hsch, hrec⟩ := hboot
  exact
    { config := hcfg
      slots := by rw [htmr, map_init_slot]
      schIdx := by rw [hsch]; exact one_le_nTimers hcfg
      wake := by simp [hwake]
      pendEmpty := fun _ => hpend
      pendOf := by simp [hsync]
      frame := by simp [hsync]
      boot := fun _ => hboot
      activity := by rw [hevh, isOn_configured htmr]; rfl
      groundSpeed := by rw [hrec]; exact typeHolds_zero _ }

theorem configOk_placeholder : configOk Params.placeholder = true := by decide

theorem resetWith_inv (d : ResetDraws) : (State.resetWith d).Inv :=
  .of_fresh configOk_placeholder rfl rfl ⟨rfl, rfl, rfl, rfl, rfl⟩

/-- Settles O51: the placeholder configuration is a checked one, and every draw leaves the rest fresh. -/
theorem invariantAtReset : Obligations.InvariantAtReset := ⟨resetWith_inv _, resetWith_inv⟩

/-- Startup step 2 starts fresh under a checked configuration (R149). -/
theorem takeConfig_inv {p : Params} {s t : State} (hi : s.Inv) (hs : s.phase = .config) (h : takeConfig p s = .next t) :
    t.Inv := by
  obtain ⟨hok, rfl⟩ := takeConfig_next h
  have hboot := hi.boot (by simp [hs])
  exact .of_fresh hok rfl (hi.pendEmpty (by simp [hboot.1])) hboot

/-! ### Every step keeps the invariant -/

theorem configureSource_inv {ok : Bool} {s t : State} (hi : s.Inv) (h : configureSource ok s = .next t) : t.Inv := by
  cases h
  exact
    { hi with
      boot := fun hne => absurd rfl hne
      activity := activityOf_emit hi (by cases ok <;> simp [activityStep]) }

theorem command_inv {by_ : Issuer} {w : BitVec 16} {s t : State} (hi : s.Inv) (hrun : s.phase = .run)
    (hs : by_ = .fas → s.sync = .kick) (h : command by_ w s = .next t) : t.Inv := by
  obtain ⟨i, u, hd, hx, rfl⟩ := command_next h
  have hu := exec_command_inv hi hrun hd hx
  obtain ⟨hphase, -, -, -, -, hsync, -⟩ := exec_command_frame hd hx
  cases by_ with
  | host => exact hu
  | fas => exact hu.setSync (hphase.trans hrun) (by simp [hsync, hs]) (.inl rfl)
  | scheduler => exact hu.advance (hphase.trans hrun)

theorem beaconCheck_inv {s t : State} (hi : s.Inv) (hrun : s.phase = .run) (hs : s.sync = .kick)
    (h : beaconCheck s = .next t) : t.Inv := by
  rcases beaconCheck_next h with h | rfl
  · exact command_inv hi hrun (fun _ => hs) h
  · exact hi.setSync hrun (by simp [hs]) (.inl rfl)

theorem recv_inv {a : Answer} {s t : State} (hi : s.Inv) (hrun : s.phase = .run) (hs : s.sync = .recv)
    (h : recv a s = .next t) : t.Inv := by
  rcases recv_next h with ⟨f, o, w, hwf, hd, rfl⟩ | ⟨es, hes, rfl⟩
  · exact hi.enterDispatch hrun hwf hd _
  · have hemit : (s.emit es).Inv :=
      { hi with
        boot := fun hne => absurd hrun hne
        activity := activityOf_emit hi (by rcases hes with rfl | rfl <;> simp [activityStep]) }
    exact hemit.setSync hrun (by simp [hs]) (.inl rfl)

/-- `WAKE_CNT` may take every value up to `WAKE_MAX` in the run phase (R32). -/
theorem State.Inv.setWakeCnt {s : State} (hi : s.Inv) (hrun : s.phase = .run) {n : Nat} (hn : n ≤ s.cfg.wakeMax) :
    ({ s with wakeCnt := n } : State).Inv :=
  { hi with
    wake := hn
    boot := fun hne => absurd hrun hne }

/-- A wake never takes `WAKE_CNT` past `WAKE_MAX` (R118). -/
theorem irq_inv {s t : State} (hi : s.Inv) (hrun : s.phase = .run) (h : irq s = .next t) : t.Inv := by
  cases h
  refine hi.setWakeCnt hrun ?_
  split
  · assumption
  · exact hi.wake

theorem waitTake_inv {s t : State} (hi : s.Inv) (hrun : s.phase = .run) (hs : s.sync = .wait)
    (h : waitTake s = .next t) : t.Inv := by
  cases h
  exact (hi.setWakeCnt hrun ((Nat.sub_le _ _).trans hi.wake)).setSync hrun (by simp [hs]) (.inr rfl)

theorem waitOver_inv {s t : State} (hi : s.Inv) (hrun : s.phase = .run) (hs : s.sync = .wait)
    (h : waitOver s = .next t) : t.Inv := by
  cases h
  exact hi.setSync hrun (by simp [hs]) (.inr rfl)

/-- Dispatch ends with nothing pending and the frame still in `FRM` (R123). -/
theorem endDispatch_inv {s t : State} (hi : s.Inv) (hrun : s.phase = .run) (hs : s.sync = .dispatch) (hp : s.pend = [])
    (h : endDispatch s = .next t) : t.Inv := by
  cases h
  exact
    { hi with
      pendEmpty := fun _ => hp
      pendOf := nofun
      frame := fun _ => hi.frame (.inl hs)
      boot := fun hne => absurd hrun hne }

/-- The speed module writes only values of the configured type (R7, R19). -/
theorem setGroundSpeed_inv {v : Int} {s t : State} (hi : s.Inv) (hrun : s.phase = .run)
    (hv : typeHolds s.cfg.groundSpeedT v = true) (h : setGroundSpeed v s = .next t) : t.Inv := by
  cases h
  exact
    { hi with
      boot := fun hne => absurd hrun hne
      groundSpeed := hv }

/-- FAS gives a command only in `S_KICK`, and every agent only in the run phase (R124, R143). -/
theorem enabled_command {by_ : Issuer} {w : BitVec 16} {s : State} (h : enabled (.command by_ w) s = true) :
    s.phase = .run ∧ (by_ = .fas → s.sync = .kick) := by
  cases by_ <;> simp_all [enabled]

/-- Every enabled step of an agent keeps the invariant. -/
theorem perform_inv {a : Act} {s t : State} (hi : s.Inv) (he : enabled a s = true) (h : perform a s = .next t) :
    t.Inv := by
  cases a
  case command by_ w => obtain ⟨hrun, hs⟩ := enabled_command he; exact command_inv hi hrun hs h
  all_goals simp only [enabled, Bool.and_eq_true, beq_iff_eq] at he
  case takeConfig p => exact takeConfig_inv hi he h
  case configure ok => exact configureSource_inv hi h
  case restart d => cases h; exact (resetWith_inv d).reschedule _ _
  case irq => exact irq_inv hi he h
  case waitTake => obtain ⟨⟨⟨hrun, hs⟩, -⟩, -⟩ := he; exact waitTake_inv hi hrun hs h
  case waitTimeout => obtain ⟨⟨hrun, hs⟩, -⟩ := he; exact waitOver_inv hi hrun hs h
  case waitPoll => obtain ⟨⟨hrun, hs⟩, -⟩ := he; exact waitOver_inv hi hrun hs h
  case recv ans => exact recv_inv hi he.1 he.2 h
  case write f v => obtain ⟨⟨hrun, -⟩, hp⟩ := he; cases h; exact hi.writeField hrun (List.contains_iff_mem.mp hp)
  case endDispatch => obtain ⟨⟨hrun, hs⟩, hp⟩ := he; exact endDispatch_inv hi hrun hs (List.isEmpty_iff.mp hp) h
  case beaconCheck => exact beaconCheck_inv hi he.1 he.2 h
  case schedCheck => exact command_inv (by_ := .scheduler) hi he nofun h
  case setGroundSpeed v => exact setGroundSpeed_inv hi he.1 he.2 h
  case read n => obtain ⟨r, rfl⟩ := readField_next h; exact { hi with }
  case regWrite idx v => obtain ⟨en, filt, id, rfl⟩ := writeReg_next h; exact { hi with }
  case tick | regRead _ | pendRead | setMode _ | setAutoUpdate _ => all_goals cases h; exact { hi with }

/-- Settles O52: a step is an enabled step of one agent, or a free choice passed over, which the invariant does not see. -/
theorem stepKeepsInvariant : Obligations.StepKeepsInvariant := by
  intro s t hi h
  rcases step_cases h with ⟨a, rest, -, he, h⟩ | ⟨-, a, he, h⟩ | ⟨-, rfl⟩
  · exact perform_inv (hi.reschedule rest s.drawCnt) he h
  · exact perform_inv (hi.reschedule s.script (s.drawCnt + 1)) he h
  · exact hi.reschedule s.script (s.drawCnt + 1)

/-! ### What only one agent's step moves -/

/-- Settles O27: the two steps that set a configuration are not taken from the run phase to the run phase. -/
theorem configurationReadOnlyInRunPhase : Obligations.ConfigurationReadOnlyInRunPhase := by
  intro s t hs h ht
  have agent {a : Act} {u : State} (hu : u.phase = .run) (he : enabled a u = true) (hp : perform a u = .next t) :
      t.cfg = u.cfg ∧ t.tmr.map Timer.init = u.tmr.map Timer.init := by
    refine (perform_keeps hp ?_).config ?_
    · rintro d rfl; cases hp; cases ht
    · rintro p rfl; simp [enabled, hu] at he
  rcases step_cases h with ⟨a, rest, -, he, h⟩ | ⟨-, a, he, h⟩ | ⟨-, rfl⟩
  · exact agent (u := { s with script := rest }) hs he h
  · exact agent (u := { s with drawCnt := s.drawCnt + 1 }) hs he h
  · exact ⟨rfl, rfl⟩

/-- Settles O30: the tick is `NOW + 1`, and `perform_keeps` has every other step. -/
theorem timeBaseTicks : Obligations.TimeBaseTicks := by
  refine ⟨fun s => ?_, fun a s t h hne hr => (perform_keeps h hr).now hne⟩
  have hnow : s.now + 1#32 = BitVec.ofNat 32 ((s.now.toNat + 1) % 2 ^ 32) := BitVec.eq_of_toNat_eq (by simp)
  simp only [perform, tick, hnow]

/-- Settles O41: a pending write fits its field and is none of `GROUND_SPEED`, so it changes its own field, to its value. -/
theorem eachFieldHasOneWriter : Obligations.EachFieldHasOneWriter := by
  intro a s t hi he h hr
  by_cases hw : ∃ f v, a = .write f v
  · obtain ⟨f, v, rfl⟩ := hw
    simp only [enabled, Bool.and_eq_true, List.contains_iff_mem] at he
    obtain ⟨hfit, hgs⟩ := hi.pend_fits he.2
    cases h
    refine ⟨fun g _ hg => ?_, fun hg => absurd (Rec.get_set_ne hgs.symm) hg⟩
    obtain rfl : g = f := by_contra fun hne => hg (Rec.get_set_ne hne)
    exact ⟨v, rfl, he.2, Rec.get_set_same hfit⟩
  by_cases hs : ∃ v, a = .setGroundSpeed v
  · obtain ⟨v, rfl⟩ := hs
    cases h
    exact ⟨fun g hne hg => absurd (Rec.get_set_ne hne) hg, fun _ => rfl⟩
  have hrec : t.record = s.record :=
    (perform_keeps h (by rintro d rfl; cases hr)).record (fun f v e => hw ⟨f, v, e⟩) fun v e => hs ⟨v, e⟩
  exact ⟨fun f _ hf => absurd (by rw [hrec]) hf, fun hf => absurd (by rw [hrec]) hf⟩

/-! ### Registers -/

/-- A one-bit field below the others, as a number. -/
theorem toNat_append_ofBool {n : Nat} (x : BitVec n) (b : Bool) : (x ++ BitVec.ofBool b).toNat = 2 * x.toNat + b.toNat := by
  rw [BitVec.toNat_append, ← Nat.shiftLeft_add_eq_or_of_lt (BitVec.isLt _), Nat.shiftLeft_eq, BitVec.toNat_ofBool]
  omega

/-- `TMR_CTRL` as a number (R34). -/
theorem timerCtrl_toNat (t : Timer) : (timerCtrl t).toNat = t.running.toNat + 2 * t.repeats.toNat + 16 * t.cb.toNat := by
  have hcb : (0#24 ++ t.cb ++ 0#2).toNat = 4 * t.cb.toNat := by
    have := t.cb.isLt
    rw [BitVec.toNat_append, BitVec.toNat_append]
    simp [Nat.shiftLeft_eq]
    omega
  have hrep := toNat_append_ofBool (0#24 ++ t.cb ++ 0#2) t.repeats
  refine (toNat_append_ofBool (0#24 ++ t.cb ++ 0#2 ++ BitVec.ofBool t.repeats) t.running).trans ?_
  rw [hrep, hcb]
  omega

/-- `MON_CTRL` as a number (R34). -/
theorem monCtrl_toNat (en filt : Bool) :
    (0#30 ++ BitVec.ofBool filt ++ BitVec.ofBool en : BitVec 32).toNat = en.toNat + 2 * filt.toNat := by
  cases en <;> cases filt <;> rfl

/-- A slot's registers stand four to a slot from 0x100 (R34). -/
theorem readReg_timer {s : State} {k : Nat} {x : Timer} (hx : s.tmr[k]? = some x) {j n : Nat} (hj : j < 4)
    (hn : n = 0x100 + 4 * k + j) : s.readReg n = timerReg x j := by
  have hk : (n - 0x100) / 4 = k := by omega
  have hm : (n - 0x100) % 4 = j := by omega
  rw [State.readReg, hk, hm, hx]
  repeat rw [if_neg (by omega)]

/-- The indices past the registry are reserved (R34). -/
theorem readReg_past {s : State} {n : Nat} (hn : 0x100 + 4 * s.tmr.length ≤ n) : s.readReg n = 0#32 := by
  have hx : s.tmr[(n - 0x100) / 4]? = none := List.getElem?_eq_none (by omega)
  rw [State.readReg, hx]
  repeat rw [if_neg (by omega)]

/-- The indices between `SCH_STATUS` and the registry are reserved (R34). -/
theorem readReg_reserved {s : State} {n : Nat} (h7 : 0x007 ≤ n) (hn : n < 0x100) : s.readReg n = 0#32 := by
  unfold State.readReg
  iterate 7 rw [if_neg (by omega)]
  rw [if_pos hn]

/-- Settles O44: each index of R34 as its fields, a slot's registers by `readReg_timer`. -/
theorem registerMapReads : Obligations.RegisterMapReads := by
  intro s
  have hmon : (s.readReg 0x001).toNat = s.monId.toNat :=
    show (s.monId.setWidth 32).toNat = _ from BitVec.toNat_setWidth_of_le (by decide)
  have hon : (s.readReg 0x002).toNat = s.isOn.toNat := by
    show (0#31 ++ BitVec.ofBool s.isOn : BitVec 32).toNat = _
    cases s.isOn <;> rfl
  have hsync : s.readReg 0x005 = (syncCode s.sync).setWidth 32 := rfl
  have hsch : (s.readReg 0x006).toNat = s.schIdx.toNat :=
    show (s.schIdx.setWidth 32).toNat = _ from BitVec.toNat_setWidth_of_le (by decide)
  refine ⟨monCtrl_toNat _ _, hmon, hon, fun hw => ?_, rfl, ?_, hsch, fun n => readReg_reserved,
    fun k x hx => ⟨?_, ?_, ?_, ?_⟩, fun n => readReg_past⟩
  · have hwake : s.readReg 0x003 = BitVec.ofNat 32 s.wakeCnt := if_pos hw
    rw [hwake, BitVec.toNat_ofNat, Nat.mod_eq_of_lt hw]
  · rw [hsync]
    cases s.sync <;> rfl
  · rw [← timerCtrl_toNat]; exact congrArg _ (readReg_timer (j := 0) hx (by omega) rfl)
  · exact readReg_timer (j := 1) hx (by omega) (by omega)
  · exact readReg_timer (j := 2) hx (by omega) (by omega)
  · exact readReg_timer (j := 3) hx (by omega) (by omega)

/-! ### The host's port -/

/-- The bits of a word from `lo` up are clear exactly when it is below `2^lo`. -/
theorem extractLsb'_eq_zero_iff {lo len : Nat} (h : lo + len = 32) (v : BitVec 32) :
    v.extractLsb' lo len = 0#len ↔ v.toNat < 2 ^ lo := by
  have hlt : v.toNat / 2 ^ lo < 2 ^ len := Nat.div_lt_of_lt_mul (by rw [← pow_add, h]; exact v.isLt)
  rw [← BitVec.toNat_inj, BitVec.extractLsb'_toNat, Nat.shiftRight_eq_div_pow, Nat.mod_eq_of_lt hlt, BitVec.toNat_zero,
    Nat.div_eq_zero_iff]
  simp

/-- `MON_CTRL` takes a word with no reserved bit set (R34). -/
theorem writeReg_monCtrl (v : BitVec 32) (s : State) :
    writeReg 0x000 v s =
      if v.toNat < 4 then .next { s with monEn := v.getLsbD 0, monFilterEn := v.getLsbD 1 } else .refused .badRegWrite :=
  (if_pos rfl).trans (if_congr (extractLsb'_eq_zero_iff (lo := 2) (len := 30) rfl v) rfl rfl)

/-- `MON_ID` takes a word with no reserved bit set (R34). -/
theorem writeReg_monId (v : BitVec 32) (s : State) :
    writeReg 0x001 v s =
      if v.toNat < 2 ^ 29 then .next { s with monId := v.extractLsb' 0 29 } else .refused .badRegWrite :=
  (if_neg (by decide)).trans ((if_pos rfl).trans (if_congr (extractLsb'_eq_zero_iff (lo := 29) (len := 3) rfl v) rfl rfl))

/-- The host writes no other register (R36). -/
theorem writeReg_other {n : Nat} (h : 2 ≤ n) (v : BitVec 32) (s : State) : writeReg n v s = .refused .badRegWrite := by
  rw [writeReg, if_neg (by omega), if_neg (by omega)]

/-- Settles O45: the reserved bits of a word are clear exactly when it is below the register's bound. -/
theorem hostRegisterAccess : Obligations.HostRegisterAccess := by
  intro s n v
  refine ⟨rfl, ?_, ?_, ?_⟩
  · rintro rfl hv
    have h0 : v.getLsbD 0 = decide (v.toNat % 2 = 1) := Nat.testBit_zero _
    have h1 : v.getLsbD 1 = decide (v.toNat / 2 = 1) := by
      rw [BitVec.getLsbD, Nat.testBit_eq_decide_div_mod_eq, pow_one, Nat.mod_eq_of_lt (by omega)]
    rw [perform, writeReg_monCtrl, if_pos hv, h0, h1]
  · rintro rfl hv
    have hid : v.extractLsb' 0 29 = BitVec.ofNat 29 v.toNat := BitVec.eq_of_toNat_eq (by simp)
    rw [perform, writeReg_monId, if_pos hv, hid]
  · rintro (⟨rfl, hv⟩ | ⟨rfl, hv⟩ | hn) <;> rw [perform]
    · rw [writeReg_monCtrl, if_neg (by omega)]
    · rw [writeReg_monId, if_neg (by omega)]
    · exact writeReg_other hn v s

/-- A read of the record does not look at `PEND` (R45). -/
theorem readField_pend {n : Nat} {s t : State} (h : readField n s = .next t) (q : List (Field × Int)) :
    readField n { s with pend := q } = .next { t with pend := q } := by
  unfold readField at h ⊢
  split at h <;> cases h
  rfl

/-- Settles O56: neither the registers nor a read of the record look at `PEND`. -/
theorem pendHasItsOwnStatusRead : Obligations.PendHasItsOwnStatusRead :=
  fun s => ⟨fun hrun => by simp [enabled, hrun], rfl, fun q _ => ⟨rfl, fun _ h => readField_pend h q⟩⟩

end Sys2Proof.Machine

/-! ## Settled statements of `20_memory.md`: a read of the record, the last write of a field, and the record part-way
through a frame's writes -/

namespace Sys2Proof.Machine

/-! ### The reader port -/

/-- `fieldOfIdx` is the inverse of the field table's index column (R16). -/
theorem fieldIdx_of_fieldOfIdx {n : Nat} {f : Field} (h : fieldOfIdx n = some f) : fieldIdx f = n := by
  have htable : allFields.map fieldIdx = List.range 25 := by decide
  have hrange : (List.range 25)[n]? = some (fieldIdx f) := by
    rw [← htable, List.getElem?_map, ← fieldOfIdx, h, Option.map_some]
  obtain ⟨hlt, hf⟩ := List.getElem?_eq_some_iff.mp hrange
  rw [← hf, List.getElem_range]

/-- Every index in 0..24 is a field's (R16). -/
theorem exists_fieldIdx {n : Nat} (h : n ≤ 24) : ∃ f, fieldIdx f = n := by
  have hne : fieldOfIdx n ≠ none := fun hnone => absurd ((fieldOfIdx_eq_none_iff n).mp hnone) (by omega)
  obtain ⟨f, hf⟩ := Option.ne_none_iff_exists'.mp hne
  exact ⟨f, fieldIdx_of_fieldOfIdx hf⟩

/-- A read of an index past the record's is refused (R45, R133). -/
theorem readField_past {n : Nat} (h : 24 < n) (s : State) : readField n s = .refused .badField := by
  simp only [readField, (fieldOfIdx_eq_none_iff n).mpr h]

/-- Settles O39: the indices 0 to 24 are the fields', and each larger one is no field's. -/
theorem readReturnsField : Obligations.ReadReturnsField := by
  intro s n
  refine ⟨fun hrun => by simp [enabled, hrun], fun hn => ?_, fun hn => readField_past hn s⟩
  obtain ⟨f, rfl⟩ := exists_fieldIdx hn
  exact ⟨f, rfl, readField_idx f s⟩

/-! ### The record after a list of writes -/

@[simp] theorem applyWrites_nil (r : Rec) : applyWrites r [] = r := rfl

@[simp] theorem applyWrites_cons (r : Rec) (x : Field × Int) (w : List (Field × Int)) :
    applyWrites r (x :: w) = applyWrites (r.set x.1 x.2) w := rfl

/-- Writes to other fields leave a field as it is (R44). -/
theorem get_applyWrites_of_notMem {f : Field} {w : List (Field × Int)} (h : f ∉ w.map Prod.fst) (r : Rec) :
    (applyWrites r w).get f = r.get f := by
  induction w generalizing r with
  | nil => rfl
  | cons x w ih =>
    rw [List.map_cons, List.mem_cons, not_or] at h
    rw [applyWrites_cons, ih h.2, Rec.get_set_ne h.1]

/-- A field written once among the writes reads as the value written (R47). -/
theorem get_applyWrites_of_mem {w : List (Field × Int)} (hnodup : (w.map Prod.fst).Nodup)
    (hfit : ∀ x ∈ w, fieldFits x.1 x.2 = true) {x : Field × Int} (hx : x ∈ w) (r : Rec) :
    (applyWrites r w).get x.1 = x.2 := by
  induction w generalizing r with
  | nil => cases hx
  | cons y w ih =>
    obtain ⟨hnotMem, hnodup⟩ := List.nodup_cons.mp hnodup
    rcases List.mem_cons.mp hx with rfl | hx
    · rw [applyWrites_cons, get_applyWrites_of_notMem hnotMem, Rec.get_set_same (hfit x List.mem_cons_self)]
    · exact ih hnodup (fun z hz => hfit z (List.mem_cons_of_mem y hz)) hx _

/-- Settles O40: later writes of other fields do not move the field, whether it was written or is as reset left it. -/
theorem readReturnsMostRecentWrite : Obligations.ReadReturnsMostRecentWrite := by
  intro f later hother
  have hnotMem : f ∉ later.map Prod.fst := by simpa using fun v hv => hother (f, v) hv rfl
  refine ⟨fun r v hfit => ?_, ?_⟩ <;> rw [get_applyWrites_of_notMem hnotMem]
  · exact Rec.get_set_same hfit
  · exact Rec.get_zero f

/-! ### No frame writes a field twice -/

/-- A write set has the fields of its extractors, in order (R70). -/
theorem extractAll_fields {d : Payload} {xs : List Extractor} {w : List (Field × Int)} (h : extractAll d xs = some w) :
    w.map Prod.fst = xs.map Extractor.dst := by
  induction xs generalizing w with
  | nil => cases h; rfl
  | cons x xs ih =>
    unfold extractAll at h
    split at h
    · cases h
      rename_i hxs
      rw [List.map_cons, List.map_cons, ih hxs]
    · cases h

/-- Extractors of different fields write no field twice. -/
theorem writtenBy_fields_nodup {d : Payload} {xs : List Extractor} {o : DispOutcome} {w : List (Field × Int)}
    (hxs : (xs.map Extractor.dst).Nodup) (h : writtenBy d xs = .ok (o, w)) : (w.map Prod.fst).Nodup := by
  unfold writtenBy at h
  split at h <;> cases h
  rwa [extractAll_fields ‹_›]

theorem motorRule_fields_nodup {d : Payload} {o : DispOutcome} {w : List (Field × Int)} (h : motorRule d = .ok (o, w)) :
    (w.map Prod.fst).Nodup := by
  unfold motorRule at h
  split at h <;> cases h
  · exact List.nodup_nil
  · simp [motorWrites]

/-- No rule writes a field twice (R83). -/
theorem runRule_fields_nodup {p : Params} {d : Payload} {r : Rule} {o : DispOutcome} {w : List (Field × Int)}
    (h : runRule p d r = .ok (o, w)) : (w.map Prod.fst).Nodup := by
  cases r with
  | ignore => cases h; exact List.nodup_nil
  | motor => exact motorRule_fields_nodup h
  | puflags => cases h; exact List.nodup_singleton _
  | bms0 => exact writtenBy_fields_nodup (by simp [bms0Extractors]) h
  | bms2 => exact writtenBy_fields_nodup (by simp [bms2Extractors]) h
  | bms7 => exact writtenBy_fields_nodup (by simp [bms7Extractors]) h
  | bms8 => exact writtenBy_fields_nodup (by simp [bms8Extractors]) h
  | bms500 => exact writtenBy_fields_nodup (by simp [bms500Extractors]) h

/-- `PEND` never holds two writes of one field (R31, R83). -/
theorem State.Inv.pend_fields_nodup {s : State} (hi : s.Inv) : (s.pend.map Prod.fst).Nodup := by
  by_cases hs : s.sync = .dispatch
  · obtain ⟨o, w, hd, hsub⟩ := hi.pendOf hs
    exact (runRule_fields_nodup hd).sublist (hsub.map Prod.fst)
  · simp [hi.pendEmpty hs]

/-! ### A frame's writes, one step each -/

/-- A run whose first step answers goes on from the answer. -/
theorem run_succ {M : Host.Core} {s u : M.State} (h : M.step s = .next u) (k : Nat) : M.run (k + 1) s = M.run k u := by
  simp only [Host.Core.run, h]

/-- A scheduled write of a pending pair is performed (R122). -/
theorem step_write {s : State} {f : Field} {v : Int} {rest : List Act} (hrun : s.phase = .run) (hs : s.sync = .dispatch)
    (hp : (f, v) ∈ s.pend) (hscript : s.script = .write f v :: rest) :
    step s = .next { s with record := s.record.set f v, pend := s.pend.erase (f, v), script := rest } := by
  rw [step_enabled hscript (by simp [enabled, hrun, hs, hp])]
  rfl

/-- Pending writes scheduled in any order are performed one a step, and leave the others pending (R122). -/
theorem run_writeActs {done left : List (Field × Int)} {rest : List Act} {s : State} (hrun : s.phase = .run)
    (hs : s.sync = .dispatch) (hp : (done ++ left).Perm s.pend) (hscript : s.script = writeActs done ++ rest) :
    ∃ q, q.Perm left ∧ Host.Core.run Sys2Proof.core done.length s =
      .next { s with record := applyWrites s.record done, pend := q, script := rest } := by
  induction done generalizing s with
  | nil =>
    obtain rfl : s.script = rest := hscript
    exact ⟨s.pend, hp.symm, rfl⟩
  | cons x done ih =>
    obtain ⟨f, v⟩ := x
    obtain ⟨hmem, hp⟩ := List.cons_perm_iff_perm_erase.mp hp
    have hstep := step_write hrun hs hmem hscript
    rw [List.length_cons, run_succ (M := Sys2Proof.core) hstep, applyWrites_cons]
    exact ih hrun hs hp rfl

/-- Settles O43: the writes performed are of different fields and fit them, so each field written holds its value. -/
theorem readerSeesSubsetOfFrameWrites : Obligations.ReaderSeesSubsetOfFrameWrites := by
  intro s done left rest hi hrun hs hp hscript
  obtain ⟨q, hq, hr⟩ := run_writeActs hrun hs hp hscript
  have hsub : done.Sublist (done ++ left) := List.sublist_append_left done left
  have hnodup : (done.map Prod.fst).Nodup :=
    ((hp.map Prod.fst).nodup_iff.mpr hi.pend_fields_nodup).sublist (hsub.map Prod.fst)
  have hfit : ∀ x ∈ done, fieldFits x.1 x.2 = true := fun x hx =>
    (hi.pend_fits (hp.subset (hsub.subset hx))).1
  exact ⟨_, hr, fun x hx => get_applyWrites_of_mem hnodup hfit hx _,
    fun g hg => get_applyWrites_of_notMem hg _, hq, hs, rfl⟩

end Sys2Proof.Machine

/-! ## Settled statements of `30_encoding.md`: the two round trips, selection and the family, reserved command words, and
the extractors of the fixed rules -/

namespace Sys2Proof.Machine

/-! ### The timer command word -/

theorem commandBytes_inj {v w : BitVec 16} : commandBytes v = commandBytes w ↔ v = w :=
  ⟨fun h => Option.some.inj (by rw [← commandOfBytes_commandBytes, h, commandOfBytes_commandBytes]), congrArg _⟩

/-- A command word is an op code, a reserved nibble and a slot (R74). -/
theorem append_eq_iff_fields {h k : BitVec 8} {w : BitVec 16} :
    h ++ k = w ↔ (cmdOp w = h.extractLsb' 4 4 ∧ cmdSlot w = k) ∧ cmdRsv w = h.extractLsb' 0 4 := by
  have hh := h.isLt
  have hk := k.isLt
  have hw := w.isLt
  simp only [← BitVec.toNat_inj, append_toNat_8_8, cmdOp_toNat, cmdRsv_toNat, cmdSlot_toNat, BitVec.extractLsb'_toNat,
    Nat.shiftRight_eq_div_pow]
  omega

theorem cmdInstr_eq_some_iff {op : BitVec 4} {slot : BitVec 8} {i : Instr} :
    cmdInstr op slot = some i ↔
      (op = 1#4 ∧ .start slot = i) ∨ (op = 2#4 ∧ .stop slot = i) ∨ (op = 3#4 ∧ .reset slot = i) ∨
        (op = 4#4 ∧ .kick slot = i) ∨ (op = 5#4 ∧ .check slot = i) := by
  unfold cmdInstr
  split_ifs <;> simp_all

/-- The command decoder's checks, all passed (R75, R76). -/
theorem decodeCommand_ok_iff_checks {p : Params} {by_ : Issuer} {w : BitVec 16} {i : Instr} :
    decodeCommand p by_ w = .ok i ↔
      cmdInstr (cmdOp w) (cmdSlot w) = some i ∧ cmdRsv w = 0#4 ∧ (cmdSlot w).toNat < p.nTimers ∧
        (cmdOp w = 4#4 → (cmdSlot w).toNat = p.actSlot) ∧ issuerOk p by_ (cmdOp w) (cmdSlot w) = true := by
  unfold decodeCommand
  cases cmdInstr (cmdOp w) (cmdSlot w) with
  | none => simp
  | some j =>
    dsimp only
    split_ifs <;> simp_all

/-- The checks on a command's slot and issuer are the command's own (R75, R76). -/
theorem wf_and_port_iff_of_cmdInstr {p : Params} {by_ : Issuer} {op : BitVec 4} {slot : BitVec 8} {i : Instr}
    (h : cmdInstr op slot = some i) :
    i.wf p = true ∧ i.port = .commands by_ ↔
      slot.toNat < p.nTimers ∧ (op = 4#4 → slot.toNat = p.actSlot) ∧ issuerOk p by_ op slot = true := by
  rcases cmdInstr_eq_some_iff.mp h with ⟨rfl, rfl⟩ | ⟨rfl, rfl⟩ | ⟨rfl, rfl⟩ | ⟨rfl, rfl⟩ | ⟨rfl, rfl⟩ <;>
    cases by_ <;> simp [Instr.wf, Instr.port, issuerOk, opIssuer]

/-- The words whose image a command encodes to: its op, no reserved bit, and its slot (R74, R75). -/
theorem encode_eq_commandBytes_iff {p : Params} {w : BitVec 16} {i : Instr} :
    i.port ≠ .frames ∧ encode p i = commandBytes w ↔
      cmdInstr (cmdOp w) (cmdSlot w) = some i ∧ cmdRsv w = 0#4 := by
  rw [cmdInstr_eq_some_iff]
  cases i <;> simp [Instr.port, encode, commandBytes_inj, append_eq_iff_fields]

/-- The command port gives exactly the well-formed commands of the issuer whose image is the word's (R74 to R76). -/
theorem decodeCommand_ok_iff {p : Params} {by_ : Issuer} {w : BitVec 16} {i : Instr} :
    decodeCommand p by_ w = .ok i ↔ i.wf p = true ∧ i.port = .commands by_ ∧ encode p i = commandBytes w := by
  rw [decodeCommand_ok_iff_checks]
  constructor
  · rintro ⟨hi, hrsv, hchecks⟩
    obtain ⟨hwf, hport⟩ := (wf_and_port_iff_of_cmdInstr hi).mpr hchecks
    exact ⟨hwf, hport, (encode_eq_commandBytes_iff.mpr ⟨hi, hrsv⟩).2⟩
  · rintro ⟨hwf, hport, henc⟩
    obtain ⟨hi, hrsv⟩ := encode_eq_commandBytes_iff.mp ⟨by simp [hport], henc⟩
    exact ⟨hi, hrsv, (wf_and_port_iff_of_cmdInstr hi).mp ⟨hwf, hport⟩⟩

/-! ### The frame -/

theorem frameBytes_inj {f g : Frame} : frameBytes f = frameBytes g ↔ f = g :=
  ⟨fun h => Option.some.inj (by rw [← frameOfBytes_frameBytes, h, frameOfBytes_frameBytes]), congrArg _⟩

/-- A frame is one body with one identifier. -/
theorem withId_eq_iff {b : FrameBody} {x : BitVec 32} {f : Frame} : b.withId x = f ↔ b = f.body ∧ f.id = x := by
  constructor
  · rintro rfl; exact ⟨rfl, rfl⟩
  · rintro ⟨rfl, h⟩; exact Frame.body_withId h

/-- The family rules and their sub-addresses (R64). -/
def familyRules : List (Rule × BitVec 16) :=
  [(.bms0, 0x0000#16), (.bms2, 0x0002#16), (.bms7, 0x0007#16), (.bms8, 0x0008#16), (.bms500, 0x0500#16)]

theorem mem_familyRules {r : Rule} {sub : BitVec 16} : (r, sub) ∈ familyRules ↔
    (r = .bms0 ∧ sub = 0#16) ∨ (r = .bms2 ∧ sub = 2#16) ∨ (r = .bms7 ∧ sub = 7#16) ∨ (r = .bms8 ∧ sub = 8#16) ∨
      (r = .bms500 ∧ sub = 0x500#16) := by
  simp [familyRules]

/-- A frame that an exact-match entry claims goes to one of the two (R64, R65). -/
theorem select_of_claimedExact {p : Params} {f : Frame} (h : p.claimedExact f.ide f.id = true) :
    select p f = if f.id = Config.motorId then .motor else .puflags := by
  rw [Params.claimedExact, Bool.and_eq_true, Bool.or_eq_true, beq_iff_eq, beq_iff_eq] at h
  obtain ⟨hstd, hid | hid⟩ := h <;> simp [select_chain, hstd, hid, Config.motorId, Config.beaconId]

/-- A frame that no exact-match entry claims goes to the family's entries, or to the last (R64, R65). -/
theorem select_of_not_claimedExact {p : Params} {f : Frame} (h : p.claimedExact f.ide f.id = false) :
    select p f =
      if p.extOk f.ide = false then .ignore
      else if f.id = p.bmsId 0#16 then .bms0
      else if f.id = p.bmsId 2#16 then .bms2
      else if f.id = p.bmsId 7#16 then .bms7
      else if f.id = p.bmsId 8#16 then .bms8
      else if f.id = p.bmsId 0x500#16 then .bms500
      else .ignore := by
  simp only [Params.claimedExact, Config.motorId, Config.beaconId, Bool.and_or_distrib_left, Bool.or_eq_false_iff] at h
  obtain ⟨hmotor, hbeacon⟩ := h
  rw [select_chain, hmotor, hbeacon]
  cases p.extOk f.ide <;> simp

theorem select_family_iff {p : Params} {f : Frame} {r : Rule} {sub : BitVec 16} (h : (r, sub) ∈ familyRules) :
    select p f = r ↔ p.extOk f.ide = true ∧ p.claimedExact f.ide f.id = false ∧ f.id = p.bmsId sub := by
  have hinj : ∀ {a b : BitVec 16}, p.bmsId a = p.bmsId b ↔ a = b := familyKey_inj
  rw [mem_familyRules] at h
  cases hexact : p.claimedExact f.ide f.id with
  | true =>
    rw [select_of_claimedExact hexact]
    rcases h with ⟨rfl, -⟩ | ⟨rfl, -⟩ | ⟨rfl, -⟩ | ⟨rfl, -⟩ | ⟨rfl, -⟩ <;> split <;> simp
  | false =>
    rw [select_of_not_claimedExact hexact]
    constructor
    · intro hsel
      rcases h with ⟨rfl, rfl⟩ | ⟨rfl, rfl⟩ | ⟨rfl, rfl⟩ | ⟨rfl, rfl⟩ | ⟨rfl, rfl⟩ <;>
        split_ifs at hsel with hext <;> exact ⟨eq_true_of_ne_false hext, rfl, ‹_›⟩
    · rintro ⟨hext, -, hid⟩
      rcases h with ⟨rfl, rfl⟩ | ⟨rfl, rfl⟩ | ⟨rfl, rfl⟩ | ⟨rfl, rfl⟩ | ⟨rfl, rfl⟩ <;> simp [hext, hid, hinj]

theorem select_motor_iff {p : Params} {f : Frame} :
    select p f = .motor ↔ p.stdOk f.ide = true ∧ f.id = Config.motorId := by
  rw [select_chain]
  split_ifs <;> simp_all [Config.motorId]

theorem select_puflags_iff {p : Params} {f : Frame} :
    select p f = .puflags ↔ p.stdOk f.ide = true ∧ f.id = Config.beaconId := by
  rw [select_chain]
  split_ifs <;> simp_all [Config.beaconId]

theorem select_ignore_iff {p : Params} {f : Frame} :
    select p f = .ignore ↔ p.claimedExact f.ide f.id = false ∧ p.claimedFamily f.ide f.id = false := by
  cases hexact : p.claimedExact f.ide f.id with
  | true => rw [select_of_claimedExact hexact]; split <;> simp
  | false =>
    rw [select_of_not_claimedExact hexact, Params.claimedFamily]
    split_ifs <;> simp_all

/-- The images of one body with two identifiers differ (R59). -/
theorem frameBytes_body_withId_iff {f : Frame} {x : BitVec 32} :
    frameBytes (f.body.withId x) = frameBytes f ↔ f.id = x := by
  rw [frameBytes_inj, withId_eq_iff]
  exact and_iff_right rfl

/-- An exact-match rule's instruction: its identifier and format are what selects the rule (R64). -/
theorem exactWf_and_encode_iff {p : Params} {f : Frame} {x : BitVec 32} :
    (f.body.wf x && p.stdOk f.ide) = true ∧ frameBytes (f.body.withId x) = frameBytes f ↔
      f.wf = true ∧ p.stdOk f.ide = true ∧ f.id = x := by
  rw [frameBytes_body_withId_iff, Frame.wf_iff_body, Bool.and_eq_true, and_assoc]
  exact ⟨fun ⟨hwf, hstd, hid⟩ => ⟨hid ▸ hwf, hstd, hid⟩, fun ⟨hwf, hstd, hid⟩ => ⟨hid ▸ hwf, hstd, hid⟩⟩

/-- A family rule's instruction: its identifier, format and priority are what selects the rule (R64 to R66). -/
theorem bmsWf_and_encode_iff {p : Params} {f : Frame} {r : Rule} {sub : BitVec 16} (h : (r, sub) ∈ familyRules) :
    p.bmsWf sub f.body = true ∧ frameBytes (f.body.withId (p.bmsId sub)) = frameBytes f ↔
      f.wf = true ∧ select p f = r := by
  rw [frameBytes_body_withId_iff, select_family_iff h, Frame.wf_iff_body, Params.bmsWf]
  generalize p.bmsId sub = x
  simp only [Bool.and_eq_true, Bool.not_eq_true']
  constructor
  · rintro ⟨⟨⟨hwf, hext⟩, hexact⟩, rfl⟩
    exact ⟨hwf, hext, hexact, rfl⟩
  · rintro ⟨hwf, hext, hexact, rfl⟩
    exact ⟨⟨⟨hwf, hext⟩, hexact⟩, rfl⟩

/-- The default rule's instruction: no other entry claims the frame (R64, R93). -/
theorem ignoreWf_iff {p : Params} {f : Frame} :
    (Instr.drIgnore f.id f.body).wf p = true ↔ f.wf = true ∧ select p f = .ignore := by
  rw [select_ignore_iff, Frame.wf_iff_body]
  simp only [Instr.wf, Bool.and_eq_true, Bool.not_eq_true', and_assoc]
  rfl

/-- The instruction of a rule on a frame is well formed and has the frame's image exactly when the frame is well formed
and selects the rule. -/
theorem instr_wf_and_encode_iff {p : Params} {f : Frame} {r : Rule} :
    (r.instr f).wf p = true ∧ encode p (r.instr f) = frameBytes f ↔ f.wf = true ∧ select p f = r := by
  cases r with
  | ignore => exact (and_iff_left rfl).trans ignoreWf_iff
  | motor => rw [select_motor_iff]; exact exactWf_and_encode_iff
  | puflags => rw [select_puflags_iff]; exact exactWf_and_encode_iff
  | bms0 => exact bmsWf_and_encode_iff (by simp [mem_familyRules])
  | bms2 => exact bmsWf_and_encode_iff (by simp [mem_familyRules])
  | bms7 => exact bmsWf_and_encode_iff (by simp [mem_familyRules])
  | bms8 => exact bmsWf_and_encode_iff (by simp [mem_familyRules])
  | bms500 => exact bmsWf_and_encode_iff (by simp [mem_familyRules])

theorem decodeFrame_ok_iff_select {p : Params} {f : Frame} {i : Instr} :
    decodeFrame p f = .ok i ↔ f.wf = true ∧ (select p f).instr f = i := by
  unfold decodeFrame
  split <;> simp_all

theorem port_rule_instr (r : Rule) (f : Frame) : (r.instr f).port = .frames := by cases r <;> rfl

/-- An instruction of the receive port with the frame's image is a rule's on the frame. -/
theorem exists_rule_of_encode {p : Params} {f : Frame} {i : Instr} (hport : i.port = .frames)
    (henc : encode p i = frameBytes f) : ∃ r : Rule, r.instr f = i := by
  have hbody : ∀ {b : FrameBody} {x : BitVec 32}, frameBytes (b.withId x) = frameBytes f → b = f.body ∧ f.id = x :=
    fun h => withId_eq_iff.mp (frameBytes_inj.mp h)
  cases i with
  | drMotor b => exact ⟨.motor, congrArg Instr.drMotor (hbody henc).1.symm⟩
  | drPuflags b => exact ⟨.puflags, congrArg Instr.drPuflags (hbody henc).1.symm⟩
  | drBms0 b => exact ⟨.bms0, congrArg Instr.drBms0 (hbody henc).1.symm⟩
  | drBms2 b => exact ⟨.bms2, congrArg Instr.drBms2 (hbody henc).1.symm⟩
  | drBms7 b => exact ⟨.bms7, congrArg Instr.drBms7 (hbody henc).1.symm⟩
  | drBms8 b => exact ⟨.bms8, congrArg Instr.drBms8 (hbody henc).1.symm⟩
  | drBms500 b => exact ⟨.bms500, congrArg Instr.drBms500 (hbody henc).1.symm⟩
  | drIgnore id b =>
    obtain ⟨rfl, rfl⟩ := hbody henc
    exact ⟨.ignore, rfl⟩
  | start | stop | reset | kick | check => cases hport

/-- The receive port gives exactly the well-formed decode-rule instructions whose image is the frame's (R59 to R66). -/
theorem decodeFrame_ok_iff {p : Params} {f : Frame} {i : Instr} :
    decodeFrame p f = .ok i ↔ i.wf p = true ∧ i.port = .frames ∧ encode p i = frameBytes f := by
  rw [decodeFrame_ok_iff_select]
  constructor
  · rintro ⟨hwf, rfl⟩
    obtain ⟨hwf, henc⟩ := instr_wf_and_encode_iff.mpr ⟨hwf, rfl⟩
    exact ⟨hwf, port_rule_instr _ _, henc⟩
  · rintro ⟨hwf, hport, henc⟩
    obtain ⟨r, rfl⟩ := exists_rule_of_encode hport henc
    obtain ⟨hwf, hsel⟩ := instr_wf_and_encode_iff.mp ⟨hwf, henc⟩
    exact ⟨hwf, by rw [hsel]⟩

/-! ### The two round trips -/

theorem exists_frame_of_port {p : Params} {i : Instr} (h : i.port = .frames) : ∃ f, encode p i = frameBytes f := by
  cases i with
  | start | stop | reset | kick | check => cases h
  | _ => exact ⟨_, rfl⟩

theorem exists_word_of_port {p : Params} {by_ : Issuer} {i : Instr} (h : i.port = .commands by_) :
    ∃ w, encode p i = commandBytes w := by
  cases i with
  | start | stop | reset | kick | check => exact ⟨_, rfl⟩
  | _ => cases h

theorem decode_frameBytes (p : Params) (f : Frame) : decode p .frames (frameBytes f) = decodeFrame p f := by
  simp only [decode, frameOfBytes_frameBytes]

theorem decode_commandBytes (p : Params) (by_ : Issuer) (w : BitVec 16) :
    decode p (.commands by_) (commandBytes w) = decodeCommand p by_ w := by
  simp only [decode, commandOfBytes_commandBytes]

/-- Settles O2: the decoders' characterizations, at the frame or the word the instruction's image is of. -/
theorem decodeEncodeRoundTrip : Obligations.DecodeEncodeRoundTrip := by
  intro p i hwf
  cases hport : i.port with
  | frames =>
    obtain ⟨f, henc⟩ := exists_frame_of_port hport
    rw [henc, decode_frameBytes]
    exact decodeFrame_ok_iff.mpr ⟨hwf, hport, henc⟩
  | commands by_ =>
    obtain ⟨w, henc⟩ := exists_word_of_port hport
    rw [henc, decode_commandBytes]
    exact decodeCommand_ok_iff.mpr ⟨hwf, hport, henc⟩

/-- Settles O3: the decoders' characterizations, read from the decoded side. -/
theorem encodeDecodeRoundTrip : Obligations.EncodeDecodeRoundTrip := by
  refine ⟨fun p f i h => ?_, fun p by_ w i h => ?_⟩
  · obtain ⟨hwf, hport, henc⟩ := decodeFrame_ok_iff.mp h
    exact ⟨hwf, hport, henc, henc ▸ frameOfBytes_frameBytes f⟩
  · obtain ⟨hwf, hport, henc⟩ := decodeCommand_ok_iff.mp h
    exact ⟨hwf, hport, henc, henc ▸ commandOfBytes_commandBytes w⟩

/-! ### Selection -/

/-- `select` is the rule of the first entry that takes the frame, and the last entry takes every frame (R65). -/
theorem selectIn_eq_iff_find {p : Params} {f : Frame} {r : Rule} {l : List LutEntry} (h : ∃ e ∈ l, e.takes p f = true) :
    selectIn p f l = r ↔ ∃ e, l.find? (fun e => e.takes p f) = some e ∧ e.rule = r := by
  induction l with
  | nil => simp at h
  | cons e l ih =>
    rw [selectIn, List.find?_cons]
    cases he : e.takes p f with
    | true => simp
    | false =>
      rw [if_neg (by simp)]
      exact ih (by simpa [he] using h)

theorem exists_lut_takes (p : Params) (f : Frame) : ∃ e ∈ lut p, e.takes p f = true :=
  ⟨⟨.ignore, 0#32, 0#32, none⟩, by simp [lut], (LutEntry.takes_iff ..).mpr ⟨BitVec.and_zero, fun _ => .inl rfl⟩⟩

/-- Settles O4: the first entry that takes the frame is the one a split of the LUT shows. -/
theorem selectionIsFirstTakingEntry : Obligations.SelectionIsFirstTakingEntry := by
  intro p f r
  rw [select, selectIn_eq_iff_find (exists_lut_takes p f)]
  simp only [List.find?_eq_some_iff_append, ← LutEntry.takes_iff, Bool.not_eq_true', Bool.not_eq_true]
  constructor
  · rintro ⟨e, ⟨he, before, after, hlut, hbefore⟩, hr⟩
    exact ⟨before, e, after, hlut, hr, he, hbefore⟩
  · rintro ⟨before, e, after, hlut, hr, he, hbefore⟩
    exact ⟨e, ⟨he, before, after, hlut, hbefore⟩, hr⟩

theorem bmsId_toNat (p : Params) (sub : BitVec 16) : (p.bmsId sub).toNat = p.bmsPrefix.toNat * 65536 + sub.toNat :=
  familyKey_toNat p sub

/-- An identifier of a well-formed frame fits the extended format (R60). -/
theorem frame_id_lt_of_wf {f : Frame} (h : f.wf = true) : f.id.toNat < 2 ^ 29 := by
  unfold Frame.wf at h
  split at h <;> simp at h <;> omega

/-- A family rule needs `BMS_PREFIX` and its sub-address, and no frame has one above 0x1FFF (R66). -/
theorem halves_of_select_family {p : Params} {f : Frame} {r : Rule} {sub : BitVec 16} (hwf : f.wf = true)
    (hr : (r, sub) ∈ familyRules) (hsel : select p f = r) :
    f.id.toNat / 65536 = p.bmsPrefix.toNat ∧ f.id.toNat % 65536 = sub.toNat ∧ p.bmsPrefix.toNat ≤ 0x1FFF := by
  obtain ⟨-, -, hid⟩ := (select_family_iff hr).mp hsel
  have hlt := frame_id_lt_of_wf hwf
  have hsub := sub.isLt
  rw [hid, bmsId_toNat] at hlt ⊢
  omega

/-- A rule is one of the family's, or one of the other three (R64). -/
theorem exists_mem_familyRules_or (r : Rule) :
    (∃ sub, (r, sub) ∈ familyRules) ∨ r = .motor ∨ r = .puflags ∨ r = .ignore := by
  simp only [mem_familyRules]
  cases r <;> simp

/-- With `BMS_PREFIX` 0 and the IDE column off, the sub-address of a family rule that is no exact identifier selects it (R66). -/
theorem select_of_prefix_zero {p : Params} {f : Frame} (hp : p.bmsPrefix.toNat = 0) (hq : p.ideQualified = false)
    {r : Rule} {sub : BitVec 16} (hr : (r, sub) ∈ familyRules) (hsub : sub.toNat ≠ 6 ∧ sub.toNat ≠ 7)
    (hid : f.id.toNat = sub.toNat) :
    select p f = r := by
  have hkey : f.id = p.bmsId sub := BitVec.eq_of_toNat_eq (by rw [bmsId_toNat]; omega)
  refine (select_family_iff hr).mpr ⟨by simp [Params.extOk, hq], ?_, hkey⟩
  have hmotor : f.id ≠ Config.motorId := fun h => hsub.1 (by rw [← hid, h]; rfl)
  have hbeacon : f.id ≠ Config.beaconId := fun h => hsub.2 (by rw [← hid, h]; rfl)
  simp [Params.claimedExact, hmotor, hbeacon]

/-- Settles O5: the two halves of a family identifier, and that every other rule is one of three. -/
theorem familyNeedsPrefixAndSubAddress : Obligations.FamilyNeedsPrefixAndSubAddress := by
  intro p f hwf
  refine ⟨fun r sub hr hsel => ?_, fun hp => ?_, fun hp hq => ⟨fun hid => ?_, fun hid => ?_, fun hid => ?_, fun hid => ?_,
    fun hid => ?_⟩⟩
  · obtain ⟨⟨r, sub⟩, hmem, heq⟩ := List.mem_map.mp
      (show (r, sub) ∈ familyRules.map (fun x => (x.1, x.2.toNat)) from hr)
    cases heq
    exact halves_of_select_family hwf hmem hsel
  · refine (exists_mem_familyRules_or (select p f)).resolve_left ?_
    rintro ⟨sub, hsub⟩
    obtain ⟨-, -, hle⟩ := halves_of_select_family hwf hsub rfl
    omega
  · exact select_puflags_iff.mpr ⟨by simp [Params.stdOk, hq], BitVec.eq_of_toNat_eq hid⟩
  · exact select_of_prefix_zero (sub := 0#16) hp hq (by simp [mem_familyRules]) (by decide) hid
  · exact select_of_prefix_zero (sub := 2#16) hp hq (by simp [mem_familyRules]) (by decide) hid
  · exact select_of_prefix_zero (sub := 8#16) hp hq (by simp [mem_familyRules]) (by decide) hid
  · exact select_of_prefix_zero (sub := 0x500#16) hp hq (by simp [mem_familyRules]) (by decide) hid

/-! ### Reserved command words -/

/-- The command port either gives an instruction or refuses with a reason (R76, R139). -/
theorem decodeCommand_total (p : Params) (by_ : Issuer) (w : BitVec 16) :
    (∃ i, decodeCommand p by_ w = .ok i) ∨ ∃ why, decodeCommand p by_ w = .error (.badCommand why) := by
  unfold decodeCommand
  split
  · exact .inr ⟨_, rfl⟩
  · split_ifs <;> simp

/-- A word that decodes is not reserved, and an owner's command comes from the host (R75, R76). -/
theorem not_reserved_of_decodeCommand_ok {p : Params} {by_ : Issuer} {w : BitVec 16} {i : Instr}
    (h : decodeCommand p by_ w = .ok i) :
    ¬ (ReservedCommand p by_ w ∨ (1 ≤ w.toNat / 4096 ∧ w.toNat / 4096 ≤ 3 ∧ by_ ≠ .host)) := by
  obtain ⟨hwf, hport, henc⟩ := decodeCommand_ok_iff.mp h
  cases i with
  | start k | stop k | reset k | kick k | check k =>
    obtain rfl := Port.commands.inj hport
    have hw := congrArg BitVec.toNat (commandBytes_inj.mp henc)
    have hk := k.isLt
    simp only [append_toNat_8_8, BitVec.toNat_ofNat] at hw
    simp only [Instr.wf, Bool.and_eq_true, decide_eq_true_eq, bne_iff_ne, beq_iff_eq] at hwf
    simp only [ReservedCommand, ne_eq, reduceCtorEq, not_true_eq_false, not_false_eq_true, and_true, and_false,
      true_and, false_and, or_true, or_false]
    omega
  | _ => cases hport

theorem decodeCommand_error_of_reserved {p : Params} {by_ : Issuer} {w : BitVec 16}
    (h : ReservedCommand p by_ w ∨ (1 ≤ w.toNat / 4096 ∧ w.toNat / 4096 ≤ 3 ∧ by_ ≠ .host)) :
    ∃ why, decodeCommand p by_ w = .error (.badCommand why) :=
  (decodeCommand_total p by_ w).resolve_left fun ⟨_, hi⟩ => not_reserved_of_decodeCommand_ok hi h

/-- A word that does not decode is refused for its own reason, whoever gives it (R76). -/
theorem command_error {by_ : Issuer} {w : BitVec 16} {s : State} {e : DecodeError}
    (h : decodeCommand s.cfg by_ w = .error e) : command by_ w s = .refused (decodeRefusal e) := by
  cases by_ <;> simp [command, fasCommand, schedCommand, issue, andThen, h]

/-- Settles O6: a reserved word does not decode. -/
theorem reservedCommandsRefused : Obligations.ReservedCommandsRefused := by
  intro s by_ w h
  obtain ⟨why, hd⟩ := decodeCommand_error_of_reserved (.inl h)
  exact ⟨why, command_error hd⟩

/-- FAS's one good word decodes to KICK (R75, R103). -/
theorem decodeCommand_fas_of_not_reserved {p : Params} {w : BitVec 16} (h : ¬ ReservedCommand p .fas w)
    (hop : 4 ≤ w.toNat / 4096) : decodeCommand p .fas w = .ok (.kick (cmdSlot w)) := by
  have hw := w.isLt
  simp only [ReservedCommand, ne_eq, reduceCtorEq, not_true_eq_false, not_false_eq_true, or_false, and_true, false_and,
    and_false] at h
  have hwf : (Instr.kick (cmdSlot w)).wf p = true := by
    simp only [Instr.wf, cmdSlot_toNat, Bool.and_eq_true, decide_eq_true_eq, beq_iff_eq]
    omega
  have hop4 : cmdOp w = 4#4 := BitVec.eq_of_toNat_eq (by rw [cmdOp_toNat, BitVec.toNat_ofNat]; omega)
  have hrsv0 : cmdRsv w = 0#4 := BitVec.eq_of_toNat_eq (by rw [cmdRsv_toNat, BitVec.toNat_ofNat]; omega)
  exact decodeCommand_ok_iff.mpr ⟨hwf, rfl, commandBytes_inj.mpr (append_eq_iff_fields.mpr ⟨⟨hop4, rfl⟩, hrsv0⟩)⟩

/-- A word that decodes, given where its agent gives none, is no step of the block (log entries 11 and 15). -/
theorem takeAct_command_notEnabled {by_ : Issuer} {w : BitVec 16} {s : State} {i : Instr}
    (hd : decodeCommand s.cfg by_ w = .ok i) (hen : enabled (.command by_ w) s = false) :
    takeAct (.command by_ w) s = .refused .notEnabled := by
  simp [takeAct, hen, notTaken, wordRefusal, hd]

/-- Settles O58: a reserved word is refused before it is asked whether its agent may give one, FAS's good word after. -/
theorem reservedWordsRefusedAtEveryStep : Obligations.ReservedWordsRefusedAtEveryStep := by
  intro s by_ w rest hrun hs
  rw [step_scheduled hs]
  refine ⟨fun h => ?_, fun hfas hres hop hnot => ?_⟩
  · obtain ⟨why, hd⟩ := decodeCommand_error_of_reserved h
    exact ⟨why, takeAct_command_error (s := { s with script := rest }) hrun hd, command_error hd⟩
  · subst hfas
    have hd := decodeCommand_fas_of_not_reserved hres hop
    exact takeAct_command_notEnabled (s := { s with script := rest }) hd (by simpa [enabled, hrun] using hnot)

/-! ### Timer commands off their slots -/

theorem withSlot_none {k : BitVec 8} {s : State} {body : Timer → Result} (h : s.tmr[k.toNat]? = none) :
    withSlot k s body = .refused (.badCommand .slot) := by
  simp only [withSlot, h]

/-- The owner's commands never go to `ACT_SLOT` (R24, R76). -/
theorem ownerCommand_actSlot {k : BitVec 8} {s : State} {u : Timer → Timer} (hk : k.toNat = s.cfg.actSlot)
    (hlt : k.toNat < s.tmr.length) : ownerCommand k s u = .refused (.badCommand .issuer) := by
  rw [ownerCommand, withSlot_some (List.getElem?_eq_getElem hlt), if_pos hk]

/-- Only `ACT_SLOT` is kicked (R76). -/
theorem execKick_other {k : BitVec 8} {s : State} (hk : k.toNat ≠ s.cfg.actSlot) :
    execKick k s = .refused (.badCommand .slot) := by
  unfold execKick
  cases ht : s.tmr[k.toNat]? with
  | none => exact withSlot_none ht
  | some t => rw [withSlot_some ht, if_pos hk]

/-- Settles O25: the two lemmas above on `ACT_SLOT` and off it, and the shared lookup of a slot that is not there. -/
theorem commandsRefusedOffTheirSlots : Obligations.CommandsRefusedOffTheirSlots := by
  intro s k
  refine ⟨fun hk hlt => ⟨ownerCommand_actSlot hk hlt, ownerCommand_actSlot hk hlt, ownerCommand_actSlot hk hlt⟩,
    execKick_other, fun hlen i hi => ?_⟩
  have hnone := List.getElem?_eq_none hlen
  simp only [List.mem_cons, List.not_mem_nil, or_false] at hi
  rcases hi with rfl | rfl | rfl | rfl | rfl <;> exact withSlot_none hnone

/-! ### The extractors of the two fixed rules -/

/-- One byte as a number, less the bias (R70). -/
theorem extract_zext {d : Payload} {f : Field} {i : Nat} {bias : Int} {b : Byte} (h : payloadByte d i = some b) :
    extract ⟨f, [i], false, bias⟩ d = some (zext b - bias) := by
  simp [extract, rawValue, h, zext]

/-- Two bytes, the high one first in the list, are `le16` of the low and the high (R11, R70). -/
theorem rawValue_pair {d : Payload} {i j : Nat} {lo hi : Byte} (hlo : payloadByte d i = some lo)
    (hhi : payloadByte d j = some hi) : rawValue d [j, i] = some (le16 lo hi).toNat := by
  simp [rawValue, hlo, hhi, le16_toNat]
  omega

theorem extract_le16 {d : Payload} {f : Field} {i j : Nat} {lo hi : Byte} (hlo : payloadByte d i = some lo)
    (hhi : payloadByte d j = some hi) : extract ⟨f, [j, i], false, 0⟩ d = some ((le16 lo hi).toNat : Int) := by
  simp [extract, rawValue_pair hlo hhi]

theorem extract_sext16_le16 {d : Payload} {f : Field} {i j : Nat} {lo hi : Byte} (hlo : payloadByte d i = some lo)
    (hhi : payloadByte d j = some hi) : extract ⟨f, [j, i], true, 0⟩ d = some (sext16 (le16 lo hi)) := by
  have hsext : sextRaw 16 (le16 lo hi).toNat = sext16 (le16 lo hi) := by
    rw [sextRaw, sext16, BitVec.toInt_eq_toNat_cond]
    split <;> split <;> omega
  simp [extract, rawValue_pair hlo hhi, hsext]

/-- Settles O16: each extractor reads the byte, or the two bytes, that the rule reads. -/
theorem fixedRulesFollowExtractors : Obligations.FixedRulesFollowExtractors := by
  intro d
  refine ⟨?_, _, rfl, ?_⟩
  · iterate 6 rw [extractAll]
    rw [extract_zext rfl, extract_zext rfl, extract_sext16_le16 rfl rfl, extract_le16 rfl rfl,
      extract_sext16_le16 rfl rfl]
    rfl
  · rw [extractAll, extractAll, extract_le16 rfl rfl]

/-! ### The layout check and the table's words -/

/-- Settles O47: the lists of the layout, one by one. -/
theorem layoutChecked : Obligations.LayoutChecked := fun _ _ => layoutOk_iff

/-- Settles O1, by evaluation of the decoder on each word. -/
theorem tableWordsDecode : Obligations.TableWordsDecode := by
  unfold Obligations.TableWordsDecode
  decide

end Sys2Proof.Machine

/-! ## Settled statements of `40_dispatcher.md`: what each decode rule answers, the values of the write sets, and that no
step faults -/

namespace Sys2Proof.Machine

/-! ### Who claims an identifier, in numbers -/

/-- An exact-match entry's format test (R64). -/
theorem stdOk_iff {p : Params} {ide : Bool} : p.stdOk ide = true ↔ (p.ideQualified = true → ide = false) := by
  cases ide <;> simp [Params.stdOk]

/-- A family entry's format test (R64). -/
theorem extOk_iff {p : Params} {ide : Bool} : p.extOk ide = true ↔ (p.ideQualified = true → ide = true) := by
  cases ide <;> simp [Params.extOk]

theorem claimedExact_iff {p : Params} {ide : Bool} {id : BitVec 32} :
    p.claimedExact ide id = true ↔ (id.toNat = 6 ∨ id.toNat = 7) ∧ (p.ideQualified = true → ide = false) := by
  simp only [Params.claimedExact, Bool.and_eq_true, Bool.or_eq_true, beq_iff_eq, stdOk_iff, ← BitVec.toNat_inj]
  exact and_comm

theorem eq_bmsId_iff {p : Params} {id : BitVec 32} {sub : BitVec 16} :
    id = p.bmsId sub ↔ id.toNat = 65536 * p.bmsPrefix.toNat + sub.toNat := by
  rw [← BitVec.toNat_inj, bmsId_toNat, Nat.mul_comm]

theorem claimedFamily_iff {p : Params} {ide : Bool} {id : BitVec 32} :
    p.claimedFamily ide id = true ↔
      (∃ sub ∈ [0, 2, 7, 8, 0x500], id.toNat = 65536 * p.bmsPrefix.toNat + sub) ∧ (p.ideQualified = true → ide = true) := by
  simp [Params.claimedFamily, extOk_iff, eq_bmsId_iff, and_comm]

/-- The beacon test, apart from the LUT (R68). -/
theorem isBeacon_iff {p : Params} {f : Frame} :
    isBeacon p f = true ↔ f.id.toNat = 7 ∧ (p.ideQualified = true → f.ide = false) := by
  rw [← stdOk_iff, isBeacon, Bool.and_eq_true, beq_iff_eq, ← BitVec.toNat_inj]
  rfl

theorem beaconCheck_not_beacon {s : State} (h : isBeacon s.cfg s.frm = false) :
    beaconCheck s = .next { s with sync := .wait } := by
  simp [beaconCheck, h]

/-- A well-formed frame decodes to the instruction of the rule it selects (R65). -/
theorem decodeFrame_of_select {p : Params} {f : Frame} {r : Rule} (hwf : f.wf = true) (hsel : select p f = r) :
    decodeFrame p f = .ok (r.instr f) :=
  decodeFrame_ok_iff_select.mpr ⟨hwf, by rw [hsel]⟩

/-! ### The fixed rules -/

/-- A rule that answers a fitting write set enters dispatch with it (R120, R121). -/
theorem receiveFrame_of_fits {res : RuleResult} {o : DispOutcome} {w : List (Field × Int)}
    (hfits : ∃ o w, res = .ok (o, w) ∧ WritesFit w) (h : res = .ok (o, w)) (r : Rule) (f : Frame) (s : State) :
    receiveFrame r f res s = .next (s.dispatching f r o w) := by
  obtain ⟨_, _, hres, hfit⟩ := hfits
  cases h.symm.trans hres
  rw [h, receiveFrame_ok (List.all_eq_true.mpr fun x hx => (hfit x hx).1), enterDispatch_eq]

theorem motorRule_of_sentinel {d : Payload} (h : SentinelIn d) : motorRule d = .ok (.discarded, []) :=
  if_pos ((hasSentinel_iff d).mpr h)

theorem motorRule_of_no_sentinel {d : Payload} (h : ¬ SentinelIn d) : motorRule d = .ok (.written, motorWrites d) :=
  if_neg (mt (hasSentinel_iff d).mp h)

/-- R85's write set in the numbers of the payload bytes. -/
theorem motorWrites_eq (d : Payload) :
    motorWrites d =
      [ (.motorTemp, (byteAt d 0 : Int) - 40), (.invTemp, (byteAt d 1 : Int) - 40),
        (.motorRpm, signed16 (byteAt d 2 + 256 * byteAt d 3)),
        (.dcVolt, ((byteAt d 4 + 256 * byteAt d 5 : Nat) : Int)),
        (.dcCurr, signed16 (byteAt d 6 + 256 * byteAt d 7)) ] := by
  rw [motorWrites, sext16_le16, sext16_le16, le16_toNat]
  rfl

/-- Settles O8: identifier 6 selects the rule, and its answer is decided by the sentinel test. -/
theorem motorRuleResult : Obligations.MotorRuleResult := by
  refine ⟨rfl, fun b s => ⟨fun hwf hstd => ?_, fun h => ?_, fun h => ?_⟩⟩
  · exact decodeFrame_of_select hwf (select_motor_iff.mpr ⟨stdOk_iff.mpr hstd, rfl⟩)
  · exact receiveFrame_of_fits (motorRule_fits _) (motorRule_of_sentinel h) _ _ s
  · rw [← motorWrites_eq]
    exact receiveFrame_of_fits (motorRule_fits _) (motorRule_of_no_sentinel h) _ _ s

/-- R86's answer in the numbers of the payload bytes. -/
theorem puflagsRule_eq (d : Payload) :
    puflagsRule d = .ok (.written, [(.puFlags, ((byteAt d 0 + 256 * byteAt d 1 : Nat) : Int))]) := by
  rw [puflagsRule, le16_toNat]
  rfl

/-- Settles O9: identifier 7 selects the rule and passes the beacon test, and the rule looks at no sentinel. -/
theorem puflagsRuleResult : Obligations.PuflagsRuleResult := by
  refine ⟨rfl, fun b s => ⟨fun hstd => ⟨isBeacon_iff.mpr ⟨rfl, hstd⟩, fun hwf => ?_⟩, ?_⟩⟩
  · exact decodeFrame_of_select hwf (select_puflags_iff.mpr ⟨stdOk_iff.mpr hstd, rfl⟩)
  · rw [exec_drPuflags]
    exact receiveFrame_of_fits (puflagsRule_fits b.data) (puflagsRule_eq b.data) .puflags _ s

/-! ### The battery rules -/

/-- The value of an extractor of the layout (R70): its bytes' number, signed if the extractor is, less its bias. -/
def layoutValue (d : Payload) (x : Extractor) : Int :=
  (if x.sgn then signed16 (beValue d x.offs) else beValue d x.offs) - x.bias

/-- An extractor reads a list of the layout, and a signed one a list of two bytes, with no bias (R72). -/
def ReadsLayout (p : Params) (x : Extractor) : Prop :=
  x.offs ∈ (layoutLists p.layout p.socVariant).map Prod.fst ∧
    (x.sgn = true → (x.offs, 2) ∈ layoutLists p.layout p.socVariant ∧ x.bias = 0)

theorem extract_layoutValue {p : Params} (h : configOk p = true) {x : Extractor} (hx : ReadsLayout p x) (d : Payload) :
    extract x d = some (layoutValue d x) := by
  obtain ⟨dst, offs, sgn, bias⟩ := x
  obtain ⟨hmem, hsgn⟩ := hx
  cases sgn with
  | false =>
    obtain ⟨⟨_, n⟩, hlist, rfl⟩ := List.mem_map.mp hmem
    exact (extract_unsigned_list (configOk_lists h _ hlist)).1
  | true =>
    obtain ⟨hpair, hbias⟩ := hsgn rfl
    obtain rfl : bias = 0 := hbias
    rw [(extract_signed_pair (configOk_lists h _ hpair)).1, layoutValue, if_pos rfl, Int.sub_zero]

/-- Extractors of the layout give the values of their lists, in order (R87). -/
theorem extractAll_layoutValue {p : Params} (h : configOk p = true) {xs : List Extractor}
    (hxs : ∀ x ∈ xs, ReadsLayout p x) (d : Payload) :
    extractAll d xs = some (xs.map fun x => (x.dst, layoutValue d x)) := by
  induction xs with
  | nil => rfl
  | cons x xs ih =>
    obtain ⟨hx, hxs⟩ := List.forall_mem_cons.mp hxs
    simp only [extractAll, extract_layoutValue h hx, ih hxs, List.map_cons]

/-- A rule given by extractors of the layout enters dispatch with their values (R87, R120, R121). -/
theorem receiveFrame_layout {s : State} (h : configOk s.cfg = true) {f : Frame} {r : Rule} {xs : List Extractor}
    (hr : runRule s.cfg f.data r = writtenBy f.data xs) (hxs : ∀ x ∈ xs, ReadsLayout s.cfg x) :
    receiveFrame r f (writtenBy f.data xs) s =
      .next (s.dispatching f r .written (xs.map fun x => (x.dst, layoutValue f.data x))) := by
  have hw : writtenBy f.data xs = .ok (.written, xs.map fun x => (x.dst, layoutValue f.data x)) := by
    simp only [writtenBy, extractAll_layoutValue h hxs]
  exact receiveFrame_of_fits (hr ▸ runRule_fits h f.data r) hw r f s

/-- A family rule's instruction on a frame with its image: the frame decodes to it when it is well formed, and it enters
dispatch with its extractors' values (R87). -/
theorem familyRule_result {s : State} {f : Frame} {r : Rule} {i : Instr} {xs : List Extractor} {w : List (Field × Int)}
    (h : configOk s.cfg = true) (himage : i.port = .frames ∧ encode s.cfg i = frameBytes f)
    (hexec : exec i s = receiveFrame r f (writtenBy f.data xs) s) (hr : runRule s.cfg f.data r = writtenBy f.data xs)
    (hxs : ∀ x ∈ xs, ReadsLayout s.cfg x) (hw : xs.map (fun x => (x.dst, layoutValue f.data x)) = w) :
    (i.wf s.cfg = true → decodeFrame s.cfg f = .ok i) ∧ exec i s = .next (s.dispatching f r .written w) :=
  ⟨fun hwf => decodeFrame_ok_iff.mpr ⟨hwf, himage⟩, by rw [hexec, receiveFrame_layout h hr hxs, hw]⟩

/-- Settles O10: `familyRule_result` for the extractors of `DR_BMS0` (R72). -/
theorem bms0RuleResult : Obligations.Bms0RuleResult :=
  ⟨rfl, fun b s h => familyRule_result (xs := bms0Extractors s.cfg) h ⟨rfl, rfl⟩ rfl rfl
    (by simp [bms0Extractors, ReadsLayout, layoutLists]) (by simp [bms0Extractors, layoutValue, FrameBody.withId])⟩

/-- Settles O11: `familyRule_result` for the extractors of `DR_BMS2` (R72). -/
theorem bms2RuleResult : Obligations.Bms2RuleResult :=
  ⟨rfl, fun b s h => familyRule_result (xs := bms2Extractors s.cfg) h ⟨rfl, rfl⟩ rfl rfl
    (by simp [bms2Extractors, ReadsLayout, layoutLists]) (by simp [bms2Extractors, layoutValue, FrameBody.withId])⟩

/-- Settles O12: `familyRule_result` for the extractors of `DR_BMS7` (R72). -/
theorem bms7RuleResult : Obligations.Bms7RuleResult :=
  ⟨rfl, fun b s h => familyRule_result (xs := bms7Extractors s.cfg) h ⟨rfl, rfl⟩ rfl rfl
    (by simp [bms7Extractors, ReadsLayout, layoutLists]) (by simp [bms7Extractors, layoutValue, FrameBody.withId])⟩

/-- Settles O13: `familyRule_result` for the extractors of `DR_BMS8` (R72). -/
theorem bms8RuleResult : Obligations.Bms8RuleResult :=
  ⟨rfl, fun b s h => familyRule_result (xs := bms8Extractors s.cfg) h ⟨rfl, rfl⟩ rfl rfl
    (by simp [bms8Extractors, ReadsLayout, layoutLists]) (by simp [bms8Extractors, layoutValue, FrameBody.withId])⟩

/-- Settles O14: `familyRule_result` for the extractors of `DR_BMS500` (R72). -/
theorem bms500RuleResult : Obligations.Bms500RuleResult :=
  ⟨rfl, fun b s h => familyRule_result (xs := bms500Extractors s.cfg) h ⟨rfl, rfl⟩ rfl rfl
    (by simp [bms500Extractors, ReadsLayout, layoutLists]) (by simp [bms500Extractors, layoutValue, FrameBody.withId])⟩

/-! ### The default rule -/

/-- Settles O15: no entry before the last claims the identifier, which is then no beacon's. -/
theorem ignoreRuleResult : Obligations.IgnoreRuleResult := by
  refine ⟨rfl, fun f s => ⟨?_, fun hwf hexact hfamily => ⟨?_, ?_⟩⟩⟩
  · exact receiveFrame_of_fits ⟨.ignored, [], rfl, by simp [WritesFit]⟩ rfl .ignore f s
  · have hsel : select s.cfg f = .ignore := select_ignore_iff.mpr
      ⟨Bool.eq_false_of_not_eq_true (mt claimedExact_iff.mp hexact),
        Bool.eq_false_of_not_eq_true (mt claimedFamily_iff.mp hfamily)⟩
    exact decodeFrame_of_select hwf hsel
  · refine beaconCheck_not_beacon (s := { s with frm := f }) (Bool.eq_false_of_not_eq_true fun hb => hexact ?_)
    obtain ⟨hid, hstd⟩ := isBeacon_iff.mp hb
    exact ⟨.inr hid, hstd⟩

/-! ### The write sets -/

theorem writtenBy_outcome {d : Payload} {xs : List Extractor} {o : DispOutcome} {w : List (Field × Int)}
    (h : writtenBy d xs = .ok (o, w)) : o = .written := by
  unfold writtenBy at h
  split at h <;> cases h
  rfl

/-- A discarded or ignored frame owes no write (R81). -/
theorem runRule_empty_of_not_written {p : Params} {d : Payload} {r : Rule} {o : DispOutcome} {w : List (Field × Int)}
    (h : runRule p d r = .ok (o, w)) (ho : o ≠ .written) : w = [] := by
  cases r with
  | ignore => cases h; rfl
  | motor =>
    by_cases hs : SentinelIn d
    · cases (motorRule_of_sentinel hs).symm.trans h; rfl
    · cases (motorRule_of_no_sentinel hs).symm.trans h; exact absurd rfl ho
  | puflags => cases h; exact absurd rfl ho
  | bms0 | bms2 | bms7 | bms8 | bms500 => exact absurd (writtenBy_outcome h) ho

/-- Settles O17: the three facts of the rule the frame selects. -/
theorem ruleValuesFitTheirFields : Obligations.RuleValuesFitTheirFields := by
  intro p f h
  obtain ⟨o, w, hr, hfit⟩ := runRule_fits h f.data (select p f)
  exact ⟨o, w, hr, hfit, runRule_fields_nodup hr, runRule_empty_of_not_written hr⟩

/-! ### No step faults -/

theorem withSlot_ne_fault {k : BitVec 8} {s : State} {body : Timer → Result} {e : Fault}
    (h : ∀ t, body t ≠ .fault e) : withSlot k s body ≠ .fault e := by
  unfold withSlot
  split
  · exact h _
  · exact nofun

theorem ownerCommand_ne_fault (k : BitVec 8) (s : State) (u : Timer → Timer) (e : Fault) :
    ownerCommand k s u ≠ .fault e :=
  withSlot_ne_fault fun t => by split <;> exact nofun

/-- A timer command never faults (R99). -/
theorem exec_command_ne_fault {p : Params} {by_ : Issuer} {w : BitVec 16} {i : Instr}
    (hd : decodeCommand p by_ w = .ok i) (s : State) (e : Fault) : exec i s ≠ .fault e := by
  rcases decodeCommand_ok hd with rfl | rfl | rfl | rfl | rfl
  · exact ownerCommand_ne_fault _ s _ e
  · exact ownerCommand_ne_fault _ s _ e
  · exact ownerCommand_ne_fault _ s _ e
  · exact withSlot_ne_fault fun t => by split_ifs <;> exact nofun
  · exact withSlot_ne_fault fun t => by split <;> exact nofun

theorem andThen_ne_fault {r : Result} {k : State → State} {e : Fault} (h : r ≠ .fault e) : andThen r k ≠ .fault e := by
  cases r with
  | next s => exact nofun
  | fault x => exact h
  | refused x => exact nofun

/-- A word on the command port is executed as a timer command, or refused (R76). -/
theorem command_ne_fault (by_ : Issuer) (w : BitVec 16) (s : State) (e : Fault) : command by_ w s ≠ .fault e := by
  cases hd : decodeCommand s.cfg by_ w with
  | error x => rw [command_error hd]; exact nofun
  | ok i =>
    have hx := exec_command_ne_fault hd s e
    cases by_ with
    | host => exact (issue_ok hd).trans_ne hx
    | fas => exact andThen_ne_fault ((issue_ok hd).trans_ne hx)
    | scheduler =>
      simp only [command, schedCommand, hd]
      split
      · exact andThen_ne_fault hx
      · exact nofun

/-- Under a checked configuration a receive never faults: every rule's values fit (R82). -/
theorem recv_ne_fault {s : State} (h : configOk s.cfg = true) (a : Answer) (e : Fault) : recv a s ≠ .fault e := by
  cases a with
  | none => exact nofun
  | error => exact nofun
  | frame f =>
    cases hd : decodeFrame s.cfg f with
    | error x => simp only [recv, hd]; exact nofun
    | ok i =>
      obtain ⟨-, rfl⟩ := decodeFrame_ok_iff_select.mp hd
      have hfits := runRule_fits h f.data (select s.cfg f)
      have ⟨o, w, hr, _⟩ := hfits
      rw [recv_frame_ok hd, exec_selected, dispatchOf, receiveFrame_of_fits hfits hr]
      exact nofun

/-- Under a checked configuration no agent's step faults. -/
theorem perform_ne_fault {s : State} (h : configOk s.cfg = true) (a : Act) (e : Fault) : perform a s ≠ .fault e := by
  cases a with
  | recv ans => exact recv_ne_fault h ans e
  | command by_ w => exact command_ne_fault by_ w s e
  | schedCheck => exact command_ne_fault .scheduler _ s e
  | beaconCheck =>
    rw [perform, beaconCheck]
    split
    · exact command_ne_fault .fas _ s e
    · exact nofun
  | read n => rw [perform, readField]; split <;> exact nofun
  | regWrite idx v => rw [perform, writeReg]; split_ifs <;> exact nofun
  | takeConfig p => rw [perform, takeConfig]; split <;> exact nofun
  | tick | irq | waitTake | waitTimeout | waitPoll | write _ _ | endDispatch | regRead _ | pendRead | setMode _
  | setAutoUpdate _ | setGroundSpeed _ | configure _ | restart _ => exact nofun

theorem notTaken_ne_fault {a : Act} {s : State} {r : Result} {e : Fault} (h : r ≠ .fault e) :
    notTaken a s r ≠ .fault e := by
  rcases notTaken_cases a s r with ⟨x, -, hx⟩ | ⟨-, hx⟩ <;> rw [hx]
  · exact nofun
  · exact h

/-- Settles O53: a step performs an agent's step under the invariant's checked configuration, or takes none. -/
theorem noStepFaults : Obligations.NoStepFaults := by
  intro s e hi
  cases hs : s.script with
  | nil =>
    rw [step_unscheduled hs, takeDraw]
    split
    · exact perform_ne_fault (hi.reschedule s.script (s.drawCnt + 1)).config _ e
    · exact notTaken_ne_fault nofun
  | cons a rest =>
    rw [step_scheduled hs, takeAct]
    split
    · exact perform_ne_fault (hi.reschedule rest s.drawCnt).config a e
    · exact notTaken_ne_fault nofun

end Sys2Proof.Machine

/-! ## Settled statements of `41_watchdog.md`: the five timer commands, the Activity Watchdog's transitions, and the
scheduler's step, its sweep and its fairness -/

namespace Sys2Proof.Machine

/-! ### A command word's decoding -/

/-- A command word as R75 writes it, the op above the slot, is the op's byte and the slot's. -/
theorem or_slot_eq_append (h k : BitVec 8) : (h.setWidth 16 <<< 8) ||| k.setWidth 16 = h ++ k := by
  rw [BitVec.append_def, BitVec.shiftLeftZeroExtend_eq, BitVec.setWidth'_eq]

/-- Past R76's checks of the op, of `rsv` and of the slot, a word's decoding turns on its issuer alone (R139). -/
theorem decodeCommand_append {p : Params} {h k : BitVec 8} {i : Instr} (hi : cmdInstr (h.extractLsb' 4 4) k = some i)
    (hrsv : h.extractLsb' 0 4 = 0#4) (hk : k.toNat < p.nTimers) (hkick : h.extractLsb' 4 4 = 4#4 → k.toNat = p.actSlot)
    (by_ : Issuer) :
    decodeCommand p by_ (h ++ k) =
      if issuerOk p by_ (h.extractLsb' 4 4) k then .ok i else .error (.badCommand .issuer) := by
  obtain ⟨⟨hop, hslot⟩, hr⟩ := append_eq_iff_fields.mp (rfl : h ++ k = h ++ k)
  simp only [decodeCommand, hop, hslot, hr, hi]
  rw [if_neg (by simp [hrsv]), if_neg (by omega), if_neg (by tauto)]

/-- START, STOP and RESET are decoded from the host alone, and on no account for `ACT_SLOT` (R75, R76). -/
theorem decodeCommand_owner {p : Params} {h k : BitVec 8} {i : Instr} (hi : cmdInstr (h.extractLsb' 4 4) k = some i)
    (hrsv : h.extractLsb' 0 4 = 0#4) (hhost : opIssuer (h.extractLsb' 4 4) = .host) (hk : k.toNat < p.nTimers) :
    (k.toNat ≠ p.actSlot → decodeCommand p .host (h ++ k) = .ok i) ∧
      ∀ by_, by_ ≠ .host ∨ k.toNat = p.actSlot → decodeCommand p by_ (h ++ k) = .error (.badCommand .issuer) := by
  have hkick : h.extractLsb' 4 4 = 4#4 → k.toNat = p.actSlot := fun h4 => by simp [h4, opIssuer] at hhost
  simp only [decodeCommand_append hi hrsv hk hkick, issuerOk, hhost]
  refine ⟨fun hne => by simp [hne], fun by_ hby => if_neg ?_⟩
  rcases hby with hby | hact
  · simp [hby]
  · simp [hact]

/-- KICK of `ACT_SLOT` and CHECK are decoded from their own issuer alone (R75, R76). -/
theorem decodeCommand_agent {p : Params} {h k : BitVec 8} {i : Instr} (hi : cmdInstr (h.extractLsb' 4 4) k = some i)
    (hrsv : h.extractLsb' 0 4 = 0#4) (hagent : opIssuer (h.extractLsb' 4 4) ≠ .host) (hk : k.toNat < p.nTimers)
    (hkick : h.extractLsb' 4 4 = 4#4 → k.toNat = p.actSlot) :
    decodeCommand p (opIssuer (h.extractLsb' 4 4)) (h ++ k) = .ok i ∧
      ∀ by_, by_ ≠ opIssuer (h.extractLsb' 4 4) → decodeCommand p by_ (h ++ k) = .error (.badCommand .issuer) := by
  simp only [decodeCommand_append hi hrsv hk hkick, issuerOk]
  exact ⟨by simp [hagent], fun by_ hby => by simp [hby]⟩

/-! ### START, STOP and RESET -/

/-- An owner's command updates its slot and nothing else (R100 to R102). -/
theorem ownerCommand_other {k : BitVec 8} {s : State} {x : Timer} (u : Timer → Timer) (hx : s.tmr[k.toNat]? = some x)
    (hk : k.toNat ≠ s.cfg.actSlot) : ownerCommand k s u = .next (s.setTimer k.toNat (u x)) := by
  rw [ownerCommand, withSlot_some hx, if_neg hk]

/-- What R100, R101 and R102 say alike of an owner's command. -/
theorem ownerCommand_result {s : State} {h k : BitVec 8} {x : Timer} {i : Instr} {u : Timer → Timer}
    (hx : s.tmr[k.toNat]? = some x) (hexec : exec i s = ownerCommand k s u)
    (hi : cmdInstr (h.extractLsb' 4 4) k = some i) (hrsv : h.extractLsb' 0 4 = 0#4)
    (hhost : opIssuer (h.extractLsb' 4 4) = .host) :
    (k.toNat ≠ s.cfg.actSlot → exec i s = .next (s.setTimer k.toNat (u x))) ∧
      (k.toNat < s.cfg.nTimers → k.toNat ≠ s.cfg.actSlot →
        decodeCommand s.cfg .host ((h.setWidth 16 <<< 8) ||| k.setWidth 16) = .ok i) ∧
      (k.toNat = s.cfg.actSlot → exec i s = .refused (.badCommand .issuer)) ∧
      (k.toNat < s.cfg.nTimers → ∀ by_, by_ ≠ .host ∨ k.toNat = s.cfg.actSlot →
        decodeCommand s.cfg by_ ((h.setWidth 16 <<< 8) ||| k.setWidth 16) = .error (.badCommand .issuer)) := by
  have hlen : k.toNat < s.tmr.length := (List.getElem?_eq_some_iff.mp hx).1
  rw [or_slot_eq_append, hexec]
  exact ⟨ownerCommand_other u hx, fun hk => (decodeCommand_owner hi hrsv hhost hk).1,
    fun hact => ownerCommand_actSlot hact hlen, fun hk => (decodeCommand_owner hi hrsv hhost hk).2⟩

/-- Settles O20: START is an owner's command with op 1. -/
theorem startResult : Obligations.StartResult :=
  fun _ _ _ hx => ownerCommand_result (h := 0x10#8) hx rfl rfl rfl rfl

/-- Settles O21: STOP is an owner's command with op 2. -/
theorem stopResult : Obligations.StopResult :=
  fun _ _ _ hx => ownerCommand_result (h := 0x20#8) hx rfl rfl rfl rfl

/-- Settles O22: RESET is an owner's command with op 3. -/
theorem resetCommandResult : Obligations.ResetCommandResult :=
  fun _ _ _ hx => ownerCommand_result (h := 0x30#8) hx rfl rfl rfl rfl

/-! ### KICK -/

/-- A kick of `ACT_SLOT` when it is On moves `LAST_RESET` alone (R103). -/
theorem execKick_on {k : BitVec 8} {s : State} {x : Timer} (hx : s.tmr[k.toNat]? = some x)
    (hact : k.toNat = s.cfg.actSlot) (hon : x.running = true) :
    execKick k s = .next (s.setTimer k.toNat { x with lastReset := s.now }) := by
  rw [execKick, withSlot_some hx, if_neg (not_not.mpr hact), if_pos hon]

/-- A kick of `ACT_SLOT` when it is Off starts it (R103, R107). -/
theorem execKick_off {k : BitVec 8} {s : State} {x : Timer} (hx : s.tmr[k.toNat]? = some x)
    (hact : k.toNat = s.cfg.actSlot) (hoff : x.running = false) :
    execKick k s =
      .next (s.setTimer k.toNat { x with running := true, lastReset := s.now }).activityStarted := by
  rw [execKick, withSlot_some hx, if_neg (not_not.mpr hact), if_neg (by simp [hoff])]

/-- Settles O23: the two lemmas above, and FAS as the one issuer of op 4. -/
theorem kickResult : Obligations.KickResult := by
  intro s k x hx hact
  refine ⟨fun hk => ?_, fun hoff => execKick_off hx hact hoff, fun hon => ?_⟩
  · rw [show 0x4000#16 ||| k.setWidth 16 = 0x40#8 ++ k from or_slot_eq_append 0x40#8 k]
    exact decodeCommand_agent (h := 0x40#8) rfl rfl (by decide) hk fun _ => hact
  · rw [exec_kick, execKick_on hx hact hon, ← hon]
    rfl

/-! ### CHECK -/

/-- R98 in numbers. -/
theorem expired_iff {now : BitVec 32} {x : Timer} :
    expired now x = true ↔ x.running = true ∧ x.timeout.toNat ≤ (now - x.lastReset).toNat := by
  simp [expired, elapsed, BitVec.le_def]

/-- A slot after its check (R104). -/
def Timer.checked (x : Timer) (now : BitVec 32) : Timer := if expired now x then afterExpiry now x else x

/-- The Activity Watchdog's callback fires at a check of this slot (R104, R106). -/
def stopsActivity (now : BitVec 32) (x : Timer) : Bool := expired now x && x.cb == Config.cbActivityStopped

/-- The events of a check (R104, R106, R108). -/
def checkEvents (p : Params) (now : BitVec 32) (k : BitVec 8) (x : Timer) : List Event :=
  if expired now x then
    if x.cb = Config.cbActivityStopped then stoppedEvents p.gaugeRestOnStop else [.timerExpired k x.cb]
  else []

/-- The state after the check of slot `k`, which is `x`, by the four pieces of state a check can move (R104, R109). -/
def State.checked (s : State) (k : BitVec 8) (x : Timer) : State :=
  { s with
    tmr := s.tmr.set k.toNat (x.checked s.now)
    evh := s.evh ++ checkEvents s.cfg s.now k x
    mode := if stopsActivity s.now x then .idle else s.mode
    autoUpdate := !stopsActivity s.now x && s.autoUpdate }

theorem Timer.checked_of_expired {x : Timer} {now : BitVec 32} (h : expired now x = true) :
    x.checked now =
      { x with running := x.repeats, lastReset := if x.repeats = true then now else x.lastReset } := by
  have hrun := (expired_iff.mp h).1
  rw [Timer.checked, if_pos h, afterExpiry]
  cases x.repeats <;> simp [hrun]

theorem Timer.checked_of_not_expired {x : Timer} {now : BitVec 32} (h : ¬ expired now x = true) : x.checked now = x :=
  if_neg h

/-- R104 for a slot, in numbers. -/
theorem Timer.checked_eq (x : Timer) (now : BitVec 32) :
    x.checked now =
      if x.running = true ∧ x.timeout.toNat ≤ (now - x.lastReset).toNat then
        { x with running := x.repeats, lastReset := if x.repeats = true then now else x.lastReset }
      else x := by
  simp only [← expired_iff]
  split
  · exact Timer.checked_of_expired ‹_›
  · exact Timer.checked_of_not_expired ‹_›

/-- Before expiry a check changes nothing (R104). -/
theorem State.checked_of_not_expired {s : State} {k : BitVec 8} {x : Timer} (hx : s.tmr[k.toNat]? = some x)
    (h : ¬ expired s.now x = true) : s.checked k x = s := by
  obtain ⟨hlt, rfl⟩ := List.getElem?_eq_some_iff.mp hx
  simp [State.checked, checkEvents, stopsActivity, Timer.checked, h]

/-- After expiry a check is the callback and the slot's update (R104). -/
theorem State.checked_of_expired {s : State} {k : BitVec 8} {x : Timer} (h : expired s.now x = true) :
    s.checked k x = (s.callback k x.cb).setTimer k.toNat (afterExpiry s.now x) := by
  rcases State.callback_cases s k x.cb with ⟨hcb, hs⟩ | ⟨hcb, hs⟩ <;> rw [hs] <;>
    simp [State.checked, checkEvents, stopsActivity, Timer.checked, h, hcb, State.activityStopped, State.emit,
      State.setTimer]

/-- A check of a slot of the registry always answers (R104). -/
theorem execCheck_of_slot {k : BitVec 8} {s : State} {x : Timer} (hx : s.tmr[k.toNat]? = some x) :
    execCheck k s = .next (s.checked k x) := by
  rw [execCheck, withSlot_some hx]
  split
  · rw [State.checked_of_expired ‹_›]
  · rw [State.checked_of_not_expired hx ‹_›]

/-- Settles O24: `execCheck_of_slot`, with the check's four pieces read off in each case. -/
theorem checkResult : Obligations.CheckResult := by
  intro s k x hx isExpired y
  have hiff : expired s.now x = true ↔ isExpired := by
    have hwrap : s.now.toNat + 2 ^ 32 - x.lastReset.toNat = 2 ^ 32 - x.lastReset.toNat + s.now.toNat := by omega
    rw [expired_iff, BitVec.toNat_sub, ← hwrap]
  simp only [exec_check, execCheck_of_slot hx, ← hiff]
  refine ⟨fun hk => ?_, fun hexp => ?_, fun hexp hcb => ?_, fun hexp hcb => ?_⟩
  · rw [show 0x5000#16 ||| k.setWidth 16 = 0x50#8 ++ k from or_slot_eq_append 0x50#8 k]
    exact decodeCommand_agent (h := 0x50#8) rfl rfl (by decide) hk (by simp)
  · rw [State.checked_of_not_expired hx hexp]
  · simp [State.checked, checkEvents, stopsActivity, Config.cbActivityStopped, Timer.checked_of_expired hexp, hexp, hcb,
      y]
  · simp [State.checked, checkEvents, stopsActivity, Config.cbActivityStopped, Timer.checked_of_expired hexp, hexp, hcb,
      y, stoppedEvents]

/-! ### The scheduler's step -/

/-- The scheduler's word is CHECK of its slot, and decodes (R75, R105). -/
theorem decodeCommand_checkWord {p : Params} {k : BitVec 8} (hk : k.toNat < p.nTimers) :
    decodeCommand p .scheduler (checkWord k) = .ok (.check k) :=
  (decodeCommand_agent (h := 0x50#8) rfl rfl (by decide) hk (by simp)).1

/-- The scheduler's step is the check of its slot, then the advance (R105). -/
theorem schedCheck_of_slot {s : State} {x : Timer} (hk : s.schIdx.toNat < s.cfg.nTimers)
    (hx : s.tmr[s.schIdx.toNat]? = some x) : schedCheck s = .next (s.checked s.schIdx x).advance :=
  schedCheck_ok (decodeCommand_checkWord hk) (execCheck_of_slot hx)

/-- `SCH_IDX` is a slot of the registry (R33). -/
theorem State.Inv.exists_schIdx_slot {s : State} (hi : s.Inv) : ∃ x, s.tmr[s.schIdx.toNat]? = some x :=
  ⟨_, List.getElem?_eq_getElem (hi.tmr_length ▸ hi.schIdx)⟩

/-- Settles O34: under the invariant `SCH_IDX` is a slot of the registry. -/
theorem schedulerStepAlwaysTaken : Obligations.SchedulerStepAlwaysTaken := by
  intro s hi hrun
  obtain ⟨x, hx⟩ := hi.exists_schIdx_slot
  exact ⟨by simp [enabled, hrun], _, execCheck_of_slot hx, schedCheck_of_slot hi.schIdx hx⟩

/-! ### The transitions of the Activity Watchdog -/

/-- What a step can do to the Activity Watchdog and to the activity events of the history (R110, R111). -/
inductive ActivityMove (s t : State) : Prop
  /-- FAS's kick on a beacon starts it. -/
  | started (hoff : s.isOn = false) (hon : t.isOn = true) (hsync : s.sync = .kick)
      (hbeacon : isBeacon s.cfg s.frm = true) (hwait : t.sync = .wait)
      (hevh : t.evh = s.evh ++ [.activityStarted, .modeSet .ready, .autoUpdate true, .gaugeStandby false])
  /-- Its own check stops it once it has expired. -/
  | stopped (hon : s.isOn = true) (hoff : t.isOn = false) (hidx : s.schIdx.toNat = s.cfg.actSlot) (x : Timer)
      (hx : s.tmr[s.cfg.actSlot]? = some x) (helapsed : s.cfg.actTimeout.toNat ≤ (s.now - x.lastReset).toNat)
      (hevh : t.evh = s.evh ++ stoppedEvents s.cfg.gaugeRestOnStop)
  /-- Every other step leaves it as it is and says nothing of it. -/
  | quiet (hon : t.isOn = s.isOn) (es : List Event) (hevh : t.evh = s.evh ++ es)
      (hes : .activityStarted ∉ es ∧ .activityStopped ∉ es)

theorem ActivityMove.of_eq {s t : State} (hon : t.isOn = s.isOn) (hevh : t.evh = s.evh) : ActivityMove s t :=
  .quiet hon [] (by simp [hevh]) (by simp)

/-- What is scheduled has no part in it. -/
theorem ActivityMove.of_reschedule {s t : State} {sc : List Act} {dc : Nat}
    (h : ActivityMove { s with script := sc, drawCnt := dc } t) : ActivityMove s t := by
  cases h with
  | started hoff hon hsync hbeacon hwait hevh => exact .started hoff hon hsync hbeacon hwait hevh
  | stopped hon hoff hidx x hx helapsed hevh => exact .stopped hon hoff hidx x hx helapsed hevh
  | quiet hon es hevh hes => exact .quiet hon es hevh hes

/-- A command of the host goes to another slot (R24). -/
theorem ownerCommand_move {k : BitVec 8} {s t : State} {u : Timer → Timer} (h : ownerCommand k s u = .next t) :
    ActivityMove s t := by
  obtain ⟨x, hx, hne, rfl⟩ := ownerCommand_next h
  exact .of_eq (by rw [State.isOn_setTimer hx, if_neg hne]) rfl

/-- The host gives START, STOP and RESET only (R75). -/
theorem hostCommand_move {w : BitVec 16} {s t : State} (h : issue .host w s = .next t) : ActivityMove s t := by
  obtain ⟨i, hd, hx⟩ := issue_next h
  have hport := (decodeCommand_ok_iff.mp hd).2.1
  rcases decodeCommand_ok hd with rfl | rfl | rfl | rfl | rfl
  · exact ownerCommand_move hx
  · exact ownerCommand_move hx
  · exact ownerCommand_move hx
  · cases hport
  · cases hport

/-- FAS's only command is KICK (R75). -/
theorem eq_kick_of_decodeCommand_fas {p : Params} {w : BitVec 16} {i : Instr} (hd : decodeCommand p .fas w = .ok i) :
    i = .kick (cmdSlot w) := by
  cases i with
  | kick k => simpa using decodeCommand_ok hd
  | _ => cases (decodeCommand_ok_iff.mp hd).2.1

/-- FAS's kick starts the Activity Watchdog when it is Off, and says nothing when it is On (R103, R107). -/
theorem fasCommand_move {w : BitVec 16} {s t : State} (hsync : s.sync = .kick) (hbeacon : isBeacon s.cfg s.frm = true)
    (h : fasCommand w s = .next t) : ActivityMove s t := by
  obtain ⟨u, hu, rfl⟩ := andThen_next h
  obtain ⟨i, hd, hexec⟩ := issue_next hu
  obtain rfl := eq_kick_of_decodeCommand_fas hd
  obtain ⟨x, hx, hact, hcase⟩ := execKick_next hexec
  have hs : s.isOn = x.running := State.isOn_of_slot (hact ▸ hx)
  have hon {y : Timer} : (s.setTimer (cmdSlot w).toNat y).isOn = y.running :=
    (State.isOn_setTimer hx).trans (if_pos hact)
  rcases hcase with ⟨-, rfl⟩ | ⟨hoff, rfl⟩
  · exact .of_eq (hon.trans hs.symm) rfl
  · exact .started (hs.trans hoff) hon hsync hbeacon rfl rfl

/-- The Activity Watchdog's callback is its own slot's (R8 items 3 and 4). -/
theorem State.Inv.cb_eq_iff {s : State} (hi : s.Inv) {k : Nat} {x : Timer} (hx : s.tmr[k]? = some x) :
    x.cb = Config.cbActivityStopped ↔ k = s.cfg.actSlot :=
  ⟨fun hcb => by_contra fun hne => hi.otherSlot hx hne hcb, fun hact => (hi.repeats_cb_of_actSlot (hact ▸ hx)).2⟩

/-- The On/Off state after a check (R28). -/
theorem State.isOn_checked {s : State} {k : BitVec 8} {x : Timer} (hx : s.tmr[k.toNat]? = some x) :
    (s.checked k x).isOn = if k.toNat = s.cfg.actSlot then (x.checked s.now).running else s.isOn :=
  State.isOn_setTimer hx

/-- The scheduler's check stops the Activity Watchdog at its own expiry (R104, R108). -/
theorem schedCheck_move {s t : State} (hi : s.Inv) (h : schedCheck s = .next t) : ActivityMove s t := by
  obtain ⟨x, hx⟩ := hi.exists_schIdx_slot
  rw [schedCheck_of_slot hi.schIdx hx] at h
  cases h
  by_cases hexp : expired s.now x = true
  · by_cases hidx : s.schIdx.toNat = s.cfg.actSlot
    · obtain ⟨hrunning, helapsed⟩ := expired_iff.mp hexp
      have hcb := (hi.cb_eq_iff hx).mpr hidx
      have hxa : s.tmr[s.cfg.actSlot]? = some x := hidx ▸ hx
      obtain ⟨y, hy, htimeout, hrep, -⟩ := hi.actSlot
      cases hxa.symm.trans hy
      refine .stopped ((State.isOn_of_slot hxa).trans hrunning) ((State.isOn_checked hx).trans ?_) hidx x hxa
        (htimeout ▸ helapsed) ?_
      · rw [if_pos hidx, Timer.checked_of_expired hexp, hrep]
      · simp [State.checked, checkEvents, hexp, hcb]
    · have hcb := mt (hi.cb_eq_iff hx).mp hidx
      exact .quiet ((State.isOn_checked hx).trans (if_neg hidx)) _ rfl (by simp [checkEvents, hexp, hcb])
  · rw [State.checked_of_not_expired hx hexp]
    exact .of_eq rfl rfl

/-- A command does what its one issuer's commands do: the host's, FAS's kick or the scheduler's check (R75). -/
theorem command_move {by_ : Issuer} {w : BitVec 16} {s t : State} (hi : s.Inv)
    (he : enabled (.command by_ w) s = true) (h : command by_ w s = .next t) : ActivityMove s t := by
  cases by_ with
  | host => exact hostCommand_move h
  | fas =>
    simp only [enabled, Bool.and_eq_true, beq_iff_eq] at he
    obtain ⟨⟨-, hsync⟩, hbeacon⟩ := he
    exact fasCommand_move hsync hbeacon h
  | scheduler =>
    obtain ⟨-, -, -, rfl, -⟩ := schedCommand_next h
    exact schedCheck_move hi h

/-- FAS kicks on a beacon only (R124). -/
theorem beaconCheck_move {s t : State} (hsync : s.sync = .kick) (h : beaconCheck s = .next t) : ActivityMove s t := by
  cases hb : isBeacon s.cfg s.frm with
  | true =>
    rw [beaconCheck, if_pos hb] at h
    exact fasCommand_move hsync hb h
  | false =>
    rw [beaconCheck_not_beacon hb] at h
    cases h
    exact .of_eq rfl rfl

/-- A receive logs an echo or a transport fault at most (R120, R121). -/
theorem recv_move {a : Answer} {s t : State} (h : recv a s = .next t) : ActivityMove s t := by
  rcases recv_next h with ⟨f, o, w, -, -, rfl⟩ | ⟨es, hes, rfl⟩
  · exact .quiet rfl _ rfl (by unfold State.echoEvents; split <;> simp)
  · exact .quiet rfl es rfl (by rcases hes with rfl | rfl <;> simp)

/-- Every enabled step that stays in the run phase is one of the table's transitions, or none (R110). -/
theorem perform_move {a : Act} {s t : State} (hi : s.Inv) (hrun : s.phase = .run) (he : enabled a s = true)
    (h : perform a s = .next t) (ht : t.phase = .run) : ActivityMove s t := by
  cases a with
  | command by_ w => exact command_move hi he h
  | schedCheck => exact schedCheck_move hi h
  | beaconCheck =>
    simp only [enabled, Bool.and_eq_true, beq_iff_eq] at he
    exact beaconCheck_move he.2 h
  | recv a => exact recv_move h
  | read n => obtain ⟨r, rfl⟩ := readField_next h; exact .of_eq rfl rfl
  | regWrite idx v => obtain ⟨en, filt, id, rfl⟩ := writeReg_next h; exact .of_eq rfl rfl
  | takeConfig p | configure ok => simp [enabled, hrun] at he
  | restart d => cases h; cases ht
  | tick | irq | waitTake | waitTimeout | waitPoll | write _ _ | endDispatch | regRead _ | pendRead | setMode _
  | setAutoUpdate _ | setGroundSpeed _ => cases h; exact .of_eq rfl rfl

theorem step_move {s t : State} (hi : s.Inv) (hrun : s.phase = .run) (h : step s = .next t) (ht : t.phase = .run) :
    ActivityMove s t := by
  rcases step_cases h with ⟨a, rest, -, he, h⟩ | ⟨-, a, he, h⟩ | ⟨-, rfl⟩
  · exact .of_reschedule (perform_move (hi.reschedule rest s.drawCnt) hrun he h ht)
  · exact .of_reschedule (perform_move (hi.reschedule s.script (s.drawCnt + 1)) hrun he h ht)
  · exact .of_eq rfl rfl

/-- Settles O29: `step_move`, each transition read off. -/
theorem activityTransitionsAreTheTables : Obligations.ActivityTransitionsAreTheTables := by
  intro s t hi hrun h ht
  cases step_move hi hrun h ht with
  | started hoff hon hsync hbeacon hwait hevh =>
    exact ⟨fun _ _ => ⟨hsync, hbeacon, hwait, hevh⟩, by simp [hoff], by simp [hoff, hon]⟩
  | stopped hon hoff hidx x hx helapsed hevh =>
    refine ⟨by simp [hon], fun _ _ => ⟨hidx, ⟨x, hx, helapsed⟩, ?_⟩, by simp [hon, hoff]⟩
    rw [hevh, stoppedEvents, List.append_assoc]
  | quiet hon es hevh hes =>
    obtain ⟨hstarted, hstopped⟩ := hes
    refine ⟨fun hs ht => by simp [hon, hs] at ht, fun hs ht => by simp [hon, hs] at ht, fun _ => ?_⟩
    simp only [startedCount, stoppedCount, hevh, List.countP_append, Nat.add_eq_left, List.countP_eq_zero, beq_iff_eq]
    exact ⟨fun e he hst => hstarted (hst ▸ he), fun e he hst => hstopped (hst ▸ he)⟩

/-! ### The sweep -/

theorem nTimers_le {p : Params} (h : configOk p = true) : p.nTimers ≤ 256 := by
  simp only [configOk, registryOk, Bool.and_eq_true, decide_eq_true_eq] at h
  omega

/-- The events of slot `k`'s check. -/
def State.slotEvents (s : State) (k : Nat) : List Event :=
  match s.tmr[k]? with
  | none => []
  | some x => checkEvents s.cfg s.now (BitVec.ofNat 8 k) x

/-- The Activity Watchdog has expired, and its slot is one of the first `n`. -/
def State.stopsBelow (s : State) (n : Nat) : Bool :=
  decide (s.cfg.actSlot < n) && s.tmr[s.cfg.actSlot]?.any (expired s.now)

/-- The state part-way through a sweep from slot 0: the first `n` slots checked, and `todo` still scheduled. -/
def State.swept (s : State) (n : Nat) (todo : List Act) : State :=
  { s with
    tmr := s.tmr.mapIdx fun k x => if k < n then x.checked s.now else x
    evh := s.evh ++ (List.range n).flatMap s.slotEvents
    mode := if s.stopsBelow n then .idle else s.mode
    autoUpdate := !s.stopsBelow n && s.autoUpdate
    schIdx := BitVec.ofNat 8 (n % s.cfg.nTimers)
    script := todo }

/-- A sweep starts from a state with `SCH_IDX` 0. -/
theorem State.swept_zero {s : State} (h : s.schIdx = 0#8) : s.swept 0 s.script = s := by
  simp [State.swept, State.stopsBelow, List.mapIdx_eq_zipIdx_map, ← h]

/-- A slot not yet checked is as it was. -/
theorem State.swept_tmr_self {s : State} {n : Nat} {x : Timer} (hx : s.tmr[n]? = some x) (todo : List Act) :
    (s.swept n todo).tmr[n]? = some x := by
  simp [State.swept, hx]

/-- Mapping the first `n` entries, then the next, maps the first `n + 1`. -/
theorem mapIdx_lt_succ {α : Type} {l : List α} {n : Nat} {x : α} (hx : l[n]? = some x) (f : α → α) :
    (l.mapIdx fun k y => if k < n then f y else y).set n (f x) = l.mapIdx fun k y => if k < n + 1 then f y else y := by
  obtain ⟨hlt, rfl⟩ := List.getElem?_eq_some_iff.mp hx
  refine List.ext_getElem (by simp) fun k _ _ => ?_
  rw [List.getElem_set, List.getElem_mapIdx, List.getElem_mapIdx]
  rcases eq_or_ne n k with rfl | hne
  · rw [if_pos rfl, if_pos (Nat.lt_succ_self n)]
  · have hlt : k < n + 1 ↔ k < n := by omega
    rw [if_neg hne]
    simp only [hlt]

/-- The check of slot `n` stops the Activity Watchdog exactly when that slot is its own and has expired. -/
theorem State.stopsBelow_succ {s : State} (hi : s.Inv) {n : Nat} {x : Timer} (hx : s.tmr[n]? = some x) :
    s.stopsBelow (n + 1) = (stopsActivity s.now x || s.stopsBelow n) := by
  have hcb := hi.cb_eq_iff hx
  by_cases hact : n = s.cfg.actSlot
  · simp [State.stopsBelow, stopsActivity, ← hact, hx, hcb.mpr hact]
  · have hlt : s.cfg.actSlot < n + 1 ↔ s.cfg.actSlot < n := by omega
    simp [State.stopsBelow, stopsActivity, hlt, mt hcb.mp hact]

/-- The check of slot `n` and the advance take the sweep one slot on. -/
theorem State.swept_succ {s : State} (hi : s.Inv) {n : Nat} {x : Timer} (hx : s.tmr[n]? = some x)
    (hn : n < s.cfg.nTimers) (todo : List Act) :
    ((s.swept n todo).checked (BitVec.ofNat 8 n) x).advance = s.swept (n + 1) todo := by
  have hk : n % 256 = n := Nat.mod_eq_of_lt (hn.trans_le (nTimers_le hi.config))
  have hslot : s.slotEvents n = checkEvents s.cfg s.now (BitVec.ofNat 8 n) x := by simp [State.slotEvents, hx]
  by_cases hstop : stopsActivity s.now x = true <;>
    simp [State.swept, State.checked, State.advance, State.stopsBelow_succ hi hx, hstop, hslot, hk, mapIdx_lt_succ hx,
      List.range_succ, Nat.mod_eq_of_lt hn]

/-- One scheduled check of a sweep (R105). -/
theorem step_swept {s : State} (hi : s.Inv) (hrun : s.phase = .run) {n : Nat} (hn : n < s.cfg.nTimers)
    (todo : List Act) : step (s.swept n (.schedCheck :: todo)) = .next (s.swept (n + 1) todo) := by
  have hx := List.getElem?_eq_getElem (hi.tmr_length ▸ hn : n < s.tmr.length)
  have hidx : (s.swept n todo).schIdx = BitVec.ofNat 8 n := by simp [State.swept, Nat.mod_eq_of_lt hn]
  have hk : (s.swept n todo).schIdx.toNat = n := by
    rw [hidx, BitVec.toNat_ofNat, Nat.mod_eq_of_lt (hn.trans_le (nTimers_le hi.config))]
  have hen : enabled .schedCheck (s.swept n todo) = true := beq_iff_eq.mpr hrun
  rw [step_enabled (s := s.swept n (.schedCheck :: todo)) rfl hen, ← State.swept_succ hi hx hn todo, ← hidx]
  exact schedCheck_of_slot (s := s.swept n todo) (hk.trans_lt hn) (hk.symm ▸ State.swept_tmr_self hx todo)

/-- A step that answers is the first of a run. -/
theorem run_step {s t : State} (h : step s = .next t) (k : Nat) :
    Host.Core.run Sys2Proof.core (k + 1) s = Host.Core.run Sys2Proof.core k t :=
  run_succ (M := Sys2Proof.core) h k

/-- Any `m` checks in a row of a sweep, from slot `n` on (R105). -/
theorem run_sweep {s : State} (hi : s.Inv) (hrun : s.phase = .run) (rest : List Act) (m : Nat) :
    ∀ n, n + m ≤ s.cfg.nTimers →
      Host.Core.run Sys2Proof.core m (s.swept n (List.replicate m .schedCheck ++ rest)) =
        .next (s.swept (n + m) rest) := by
  induction m with
  | zero => exact fun n _ => rfl
  | succ m ih =>
    intro n hle
    have hstep := step_swept hi hrun (by omega : n < s.cfg.nTimers) (List.replicate m .schedCheck ++ rest)
    rw [List.replicate_succ, List.cons_append, run_step hstep, ih (n + 1) (by omega), Nat.add_right_comm, Nat.add_assoc]

/-- A check's events by the slot's number, since the Activity Watchdog's callback is its own slot's (R8, R106). -/
theorem checkEvents_of_slot {s : State} (hi : s.Inv) {k : Nat} {x : Timer} (hx : s.tmr[k]? = some x) (j : BitVec 8) :
    checkEvents s.cfg s.now j x =
      if x.running = true ∧ x.timeout.toNat ≤ (s.now - x.lastReset).toNat then
        if k = s.cfg.actSlot then stoppedEvents s.cfg.gaugeRestOnStop else [.timerExpired j x.cb]
      else [] := by
  simp only [checkEvents, expired_iff, hi.cb_eq_iff hx]

/-- Settles O35: the sweep's `NTIMERS` checks, one after the other, end in `State.swept`, whose parts are read off. -/
theorem sweepChecksEverySlotInOrder : Obligations.SweepChecksEverySlotInOrder := by
  intro s rest hi hrun hidx hscript
  have hsweep := run_sweep hi hrun rest s.cfg.nTimers 0 (Nat.zero_add _).le
  rw [← sweepActs, ← hscript, State.swept_zero hidx, Nat.zero_add] at hsweep
  have hlt {k : Nat} {x : Timer} (hx : s.tmr[k]? = some x) : k < s.cfg.nTimers :=
    hi.tmr_length ▸ (List.getElem?_eq_some_iff.mp hx).1
  refine ⟨_, hsweep, fun k => ?slots, congrArg (fun f => s.evh ++ (List.range s.cfg.nTimers).flatMap f)
    (funext fun k => ?events), fun x hx => ?sink, by simp [State.swept], rfl, rfl, rfl, rfl, rfl, rfl, rfl, rfl, rfl,
    rfl, rfl, rfl⟩
  case slots =>
    cases hx : s.tmr[k]? with
    | none => simp [State.swept, hx]
    | some x => simp [State.swept, hx, hlt hx, Timer.checked_eq]
  case events =>
    unfold State.slotEvents
    cases hx : s.tmr[k]? with
    | none => rfl
    | some x => exact checkEvents_of_slot hi hx _
  case sink =>
    simp only [State.swept, State.stopsBelow, hx, ← expired_iff, hlt hx, decide_true, Bool.true_and, Option.any_some]
    split <;> simp [*]

/-! ### The fairness of the scheduler -/

/-- A command moves `SCH_IDX` when it is the scheduler's, and keeps the phase (R99, R105). -/
theorem command_phase_schIdx {by_ : Issuer} {w : BitVec 16} {s t : State} (h : command by_ w s = .next t) :
    t.phase = s.phase ∧ t.schIdx = if by_ = .scheduler then s.advance.schIdx else s.schIdx := by
  obtain ⟨i, u, hd, hx, rfl⟩ := command_next h
  obtain ⟨hphase, hcfg, -, -, -, -, -, -, -, hsch, -, -⟩ := exec_command_frame hd hx
  cases by_ with
  | host | fas => exact ⟨hphase, hsch⟩
  | scheduler => exact ⟨hphase, by simp [State.afterCommand, hsch, hcfg]⟩

/-- Within the run phase only the scheduler moves `SCH_IDX`, and only a restart ends the phase (R33, R105, R143). -/
theorem perform_phase_schIdx {a : Act} {s t : State} (hrun : s.phase = .run) (he : enabled a s = true)
    (hr : isRestart a = false) (h : perform a s = .next t) :
    t.phase = .run ∧ t.schIdx = if isSchedulerAct a = true then s.advance.schIdx else s.schIdx := by
  rw [← hrun]
  cases a with
  | command by_ w =>
    have hc := command_phase_schIdx h
    cases by_ <;> exact hc
  | schedCheck => exact command_phase_schIdx (by_ := .scheduler) h
  | beaconCheck =>
    rcases beaconCheck_next h with h | rfl
    · exact command_phase_schIdx h
    · exact ⟨rfl, rfl⟩
  | recv a => rcases recv_next h with ⟨f, o, w, -, -, rfl⟩ | ⟨es, -, rfl⟩ <;> exact ⟨rfl, rfl⟩
  | read n => obtain ⟨r, rfl⟩ := readField_next h; exact ⟨rfl, rfl⟩
  | regWrite idx v => obtain ⟨en, filt, id, rfl⟩ := writeReg_next h; exact ⟨rfl, rfl⟩
  | takeConfig p | configure ok => simp [enabled, hrun] at he
  | restart d => cases hr
  | tick | irq | waitTake | waitTimeout | waitPoll | write _ _ | endDispatch | regRead _ | pendRead | setMode _
  | setAutoUpdate _ | setGroundSpeed _ => cases h; exact ⟨rfl, rfl⟩

section
variable {tr : Nat → State} {acts : Nat → Act} (htr : IsRun tr acts) (hi : (tr 0).Inv) (hrun : (tr 0).phase = .run)
  (hr : ∀ n, isRestart (acts n) = false)
include htr hi hrun hr

/-- A run that is never restarted stays in the run phase, under the invariant and its one configuration. -/
theorem isRun_keeps (n : Nat) : (tr n).Inv ∧ (tr n).phase = .run ∧ (tr n).cfg = (tr 0).cfg := by
  induction n with
  | zero => exact ⟨hi, hrun, rfl⟩
  | succ n ih =>
    obtain ⟨hin, hrunn, hcfg⟩ := ih
    obtain ⟨he, hp⟩ := htr n
    have hkeeps := perform_keeps hp (by rintro d hd; simpa [hd, isRestart] using hr n)
    refine ⟨perform_inv hin he hp, (perform_phase_schIdx hrunn he (hr n) hp).1, (hkeeps.config ?_).1.trans hcfg⟩
    rintro p hd
    simp [hd, enabled, hrunn] at he

/-- `SCH_IDX` along such a run. -/
theorem isRun_schIdx (n : Nat) :
    (tr (n + 1)).schIdx = if isSchedulerAct (acts n) = true then (tr n).advance.schIdx else (tr n).schIdx :=
  (perform_phase_schIdx (isRun_keeps htr hi hrun hr n).2.1 (htr n).1 (hr n) (htr n).2).2

/-- `SCH_IDX` waits for the scheduler. -/
theorem exists_schedulerStep_of_add {d : Nat} :
    ∀ n, isSchedulerAct (acts (n + d)) = true →
      ∃ m, n ≤ m ∧ isSchedulerAct (acts m) = true ∧ (tr m).schIdx = (tr n).schIdx := by
  induction d with
  | zero => exact fun n h => ⟨n, le_rfl, h, rfl⟩
  | succ d ih =>
    intro n h
    by_cases hn : isSchedulerAct (acts n) = true
    · exact ⟨n, le_rfl, hn, rfl⟩
    · obtain ⟨m, hle, hm, hidx⟩ := ih (n + 1) (by rwa [Nat.add_right_comm, Nat.add_assoc])
      refine ⟨m, (Nat.le_succ n).trans hle, hm, hidx.trans ?_⟩
      rw [isRun_schIdx htr hi hrun hr, if_neg hn]

variable (hfair : FairScheduler tr acts)
include hfair

/-- In a fair run the slot whose turn it is gets checked. -/
theorem exists_schedulerStep (n : Nat) :
    ∃ m, n ≤ m ∧ isSchedulerAct (acts m) = true ∧ (tr m).schIdx = (tr n).schIdx := by
  obtain ⟨m, hle, hm⟩ := hfair n fun m _ => by simp [enabled, (isRun_keeps htr hi hrun hr m).2.1]
  obtain ⟨d, rfl⟩ := Nat.exists_eq_add_of_le hle
  exact exists_schedulerStep_of_add htr hi hrun hr n hm

/-- A slot `d` turns ahead of `SCH_IDX` gets checked: each turn takes it one nearer. -/
theorem exists_check_of_turns {k : Nat} (d : Nat) :
    ∀ n, ((tr n).schIdx.toNat + d) % (tr 0).cfg.nTimers = k →
      ∃ m, n ≤ m ∧ isSchedulerAct (acts m) = true ∧ (tr m).schIdx.toNat = k := by
  induction d with
  | zero =>
    intro n hk
    obtain ⟨hin, -, hcfg⟩ := isRun_keeps htr hi hrun hr n
    obtain ⟨m, hle, hm, hidx⟩ := exists_schedulerStep htr hi hrun hr hfair n
    refine ⟨m, hle, hm, ?_⟩
    rw [hidx, ← hk, Nat.add_zero, Nat.mod_eq_of_lt (hcfg ▸ hin.schIdx)]
  | succ d ih =>
    intro n hk
    obtain ⟨m, hle, hm, hidx⟩ := exists_schedulerStep htr hi hrun hr hfair n
    obtain ⟨him, -, hcfg⟩ := isRun_keeps htr hi hrun hr m
    have hlt : ((tr m).schIdx.toNat + 1) % (tr m).cfg.nTimers < 256 :=
      (Nat.mod_lt _ (one_le_nTimers him.config)).trans_le (nTimers_le him.config)
    obtain ⟨j, hj, hcheck⟩ := ih (m + 1) (by
      rw [isRun_schIdx htr hi hrun hr, if_pos hm, State.advance_schIdx, BitVec.toNat_ofNat, Nat.mod_eq_of_lt hlt, hcfg,
        Nat.mod_add_mod, hidx, Nat.add_assoc, Nat.add_comm 1, hk])
    exact ⟨j, hle.trans ((Nat.le_succ m).trans hj), hcheck⟩

end

/-- Settles O37: slot `k` is `k + NTIMERS - SCH_IDX` turns ahead. -/
theorem everySlotCheckedInfinitelyOften : Obligations.EverySlotCheckedInfinitelyOften := by
  intro tr acts htr hfair hi hrun hr n k hk
  obtain ⟨hin, -, hcfg⟩ := isRun_keeps htr hi hrun hr n
  have hidx : (tr n).schIdx.toNat < (tr 0).cfg.nTimers := hcfg ▸ hin.schIdx
  refine exists_check_of_turns htr hi hrun hr hfair (k + (tr 0).cfg.nTimers - (tr n).schIdx.toNat) n ?_
  rw [Nat.add_sub_cancel' (by omega), Nat.add_mod_right, Nat.mod_eq_of_lt hk]

end Sys2Proof.Machine

/-! ## Settled statements of `42_synchronizer.md`: the receive, the waits, the writes and the beacon check of FAS, one
frame from its receive to `S_WAIT`, and the return to `S_WAIT` in every fair run -/

namespace Sys2Proof.Machine

/-! ### The receive -/

/-- A received well-formed frame enters dispatch with the answer of the rule it selects (R80, R121). -/
theorem recv_frame_of_dispatchOf {s : State} (h : configOk s.cfg = true) {f : Frame} {o : DispOutcome}
    {w : List (Field × Int)} (hwf : f.wf = true) (hd : dispatchOf s.cfg f = .ok (o, w)) :
    recv (.frame f) s = .next (s.dispatching f (select s.cfg f) o w) := by
  rw [recv_frame_ok (if_pos hwf), exec_selected]
  exact receiveFrame_of_fits (runRule_fits h f.data (select s.cfg f)) hd (select s.cfg f) f s

/-- Settles O18: the rule's answer fits its fields under a checked configuration, so the receive enters dispatch. -/
theorem receiveEntersDispatchWithRuleAnswer : Obligations.ReceiveEntersDispatchWithRuleAnswer :=
  fun _ _ _ _ h hwf hd => recv_frame_of_dispatchOf h hwf hd

/-- R60, from the side of what it shuts out. -/
theorem frame_not_wf_iff {f : Frame} :
    ¬ f.wf = true ↔
      8 < f.dlc.toNat ∨ (f.ide = false ∧ 2 ^ 11 ≤ f.id.toNat) ∨ (f.ide = true ∧ 2 ^ 29 ≤ f.id.toNat) := by
  cases hide : f.ide <;> simp [Frame.wf, hide] <;> omega

theorem recv_frame_not_wf {f : Frame} (h : ¬ f.wf = true) (s : State) : recv (.frame f) s = .refused .badFrame := by
  simp [recv, decodeFrame, h, decodeRefusal]

/-- Settles O19: the two other answers by definition, and the frames R60 shuts out do not decode. -/
theorem receiveWithoutFrame : Obligations.ReceiveWithoutFrame :=
  fun s => ⟨rfl, rfl, fun _ h => recv_frame_not_wf (frame_not_wf_iff.mpr h) s⟩

/-! ### The waits -/

/-- Settles O31: the saturating count of R118, and the requires lines of R119. -/
theorem wakesAndWaits : Obligations.WakesAndWaits := by
  intro s hrun
  have hcount : (if s.wakeCnt < s.cfg.wakeMax then s.wakeCnt + 1 else s.wakeCnt) =
      min (s.wakeCnt + 1) (max s.wakeCnt s.cfg.wakeMax) := by
    split <;> omega
  refine ⟨by rw [perform, irq, hcount], ?_, ?_, ?_, rfl, rfl, rfl⟩ <;> simp [enabled, hrun, and_assoc]

/-! ### The writes -/

/-- In the run phase a write is enabled exactly for a pending pair in `S_DISPATCH` (R122). -/
theorem enabled_write_iff {s : State} (hrun : s.phase = .run) {f : Field} {v : Int} :
    enabled (.write f v) s = true ↔ s.sync = .dispatch ∧ (f, v) ∈ s.pend := by
  simp [enabled, hrun]

/-- In the run phase dispatch may end exactly when nothing is pending (R123). -/
theorem enabled_endDispatch_iff {s : State} (hrun : s.phase = .run) :
    enabled .endDispatch s = true ↔ s.sync = .dispatch ∧ s.pend = [] := by
  simp [enabled, hrun]

/-- Settles O32: a pending pair fits its field and is pending once, so its write sets the field and removes it alone. -/
theorem writesThenEndOfDispatch : Obligations.WritesThenEndOfDispatch := by
  intro s hi hrun hs
  refine ⟨fun f v hp => ⟨(enabled_write_iff hrun).mpr ⟨hs, hp⟩, _, rfl, ?_, fun g hne => Rec.get_set_ne hne, fun x => ?_,
    rfl⟩, fun f v hp => ?_, ?_, rfl⟩
  · exact Rec.get_set_same (hi.pend_fits hp).1
  · rw [(List.Nodup.of_map _ hi.pend_fields_nodup).mem_erase_iff, and_comm]
  · exact Bool.eq_false_of_not_eq_true fun he => hp ((enabled_write_iff hrun).mp he).2
  · rw [enabled_endDispatch_iff hrun, and_iff_right hs]

/-! ### The beacon check -/

/-- `ACT_SLOT` is a slot number (R8 item 1). -/
theorem actSlot_toNat {p : Params} (h : configOk p = true) :
    p.actSlot < p.nTimers ∧ (BitVec.ofNat 8 p.actSlot).toNat = p.actSlot := by
  have hle := nTimers_le h
  simp only [configOk, registryOk, Bool.and_eq_true, decide_eq_true_eq] at h
  rw [BitVec.toNat_ofNat]
  omega

/-- FAS's word decodes to KICK `ACT_SLOT` (R75, R124). -/
theorem decodeCommand_kickWord {p : Params} (h : configOk p = true) :
    decodeCommand p .fas (kickWord p) = .ok (.kick (BitVec.ofNat 8 p.actSlot)) := by
  obtain ⟨hlt, hk⟩ := actSlot_toNat h
  exact (decodeCommand_agent (h := 0x40#8) rfl rfl (by decide) (hk.trans_lt hlt) fun _ => hk).1

/-- KICK `ACT_SLOT` leaves the Activity Watchdog On with `LAST_RESET` at `NOW`, Off or On before (R103). -/
theorem State.Inv.exec_kick_actSlot {s : State} (hi : s.Inv) :
    ∃ u, exec (.kick (BitVec.ofNat 8 s.cfg.actSlot)) s = .next u ∧ u.isOn = true ∧
      ∃ y, u.tmr[s.cfg.actSlot]? = some y ∧ y.lastReset = s.now := by
  obtain ⟨x, hx, -⟩ := hi.actSlot
  obtain ⟨-, hk⟩ := actSlot_toNat hi.config
  have hxk : s.tmr[(BitVec.ofNat 8 s.cfg.actSlot).toNat]? = some x := hk.symm ▸ hx
  have hslot (y : Timer) : (s.setTimer (BitVec.ofNat 8 s.cfg.actSlot).toNat y).tmr[s.cfg.actSlot]? = some y := by
    rw [State.setTimer_tmr, hk, List.getElem?_set_self (List.getElem?_eq_some_iff.mp hx).1]
  have hset (y : Timer) : (s.setTimer (BitVec.ofNat 8 s.cfg.actSlot).toNat y).isOn = y.running :=
    State.isOn_of_slot (hslot y)
  cases hon : x.running with
  | true => exact ⟨_, execKick_on hxk hk hon, (hset _).trans hon, _, hslot _, rfl⟩
  | false => exact ⟨_, execKick_off hxk hk hon, hset _, _, hslot _, rfl⟩

/-- On a beacon the check is KICK `ACT_SLOT` and the return to `S_WAIT` in one step (R124). -/
theorem beaconCheck_beacon {s : State} (hi : s.Inv) (hb : isBeacon s.cfg s.frm = true) :
    ∃ u, exec (.kick (BitVec.ofNat 8 s.cfg.actSlot)) s = .next u ∧ beaconCheck s = .next { u with sync := .wait } ∧
      u.isOn = true ∧ ∃ y, u.tmr[s.cfg.actSlot]? = some y ∧ y.lastReset = s.now := by
  obtain ⟨u, hx, hkicked⟩ := hi.exec_kick_actSlot
  exact ⟨u, hx, beaconCheck_beacon_ok hb (decodeCommand_kickWord hi.config) hx, hkicked⟩

/-- The beacon check completes, on a beacon and on any other frame. -/
theorem State.Inv.exists_beaconCheck {s : State} (hi : s.Inv) : ∃ t, beaconCheck s = .next t := by
  cases hb : isBeacon s.cfg s.frm with
  | true =>
    obtain ⟨u, -, hu, -⟩ := beaconCheck_beacon hi hb
    exact ⟨_, hu⟩
  | false => exact ⟨_, beaconCheck_not_beacon hb⟩

/-- In the run phase the beacon check is enabled exactly in `S_KICK` (R124). -/
theorem enabled_beaconCheck_iff {s : State} (hrun : s.phase = .run) :
    enabled .beaconCheck s = true ↔ s.sync = .kick := by
  simp [enabled, hrun]

/-- Settles O33: the two outcomes of the beacon check, by R68's test in numbers. -/
theorem beaconCheckKicksOnce : Obligations.BeaconCheckKicksOnce := by
  intro s hi hrun hs
  rw [← isBeacon_iff]
  exact ⟨(enabled_beaconCheck_iff hrun).mpr hs, beaconCheck_beacon hi,
    fun hb => beaconCheck_not_beacon (Bool.eq_false_of_not_eq_true hb)⟩

/-! ### No deadlock -/

/-- Settles O36: the enabling of each of FAS's steps, and the completion of the receive and of the beacon check. -/
theorem fasNeverDeadlocks : Obligations.FasNeverDeadlocks := by
  intro s hi hrun
  have hrecv (a : Answer) (hs : s.sync = .recv) : enabled (.recv a) s = true := by simp [enabled, hrun, hs]
  refine ⟨fun hs hm => by simp [enabled, hrun, hs, hm], fun hs hm => by simp [enabled, hrun, hs, hm],
    fun hs => ⟨hrecv _ hs, hrecv _ hs, fun f hwf => ⟨hrecv _ hs, ?_⟩⟩, fun hs hp => ?_,
    fun hs hp => (enabled_endDispatch_iff hrun).mpr ⟨hs, hp⟩,
    fun hs => ⟨(enabled_beaconCheck_iff hrun).mpr hs, hi.exists_beaconCheck⟩⟩
  · obtain ⟨o, w, hd, -⟩ := ruleValuesFitTheirFields s.cfg f hi.config
    exact ⟨_, recv_frame_of_dispatchOf hi.config hwf hd⟩
  · obtain ⟨⟨f, v⟩, q, hq⟩ := List.exists_cons_of_ne_nil hp
    exact ⟨f, v, (enabled_write_iff hrun).mpr ⟨hs, by simp [hq]⟩⟩

/-! ### One frame from its receive to `S_WAIT` -/

/-- A run goes on from where its first steps end. -/
theorem run_add {M : Host.Core} {m : Nat} {s t : M.State} (h : M.run m s = .next t) (k : Nat) :
    M.run (m + k) s = M.run k t := by
  induction m generalizing s with
  | zero => cases h; rw [Nat.zero_add]
  | succ m ih =>
    cases hs : M.step s with
    | next u => rw [run_succ hs] at h; rw [Nat.add_right_comm, run_succ hs, ih h]
    | fault e => simp [Host.Core.run, hs] at h
    | refused e => simp [Host.Core.run, hs] at h

/-- Every run keeps the invariant. -/
theorem run_inv {k : Nat} {s t : State} (hi : s.Inv) (h : Host.Core.run Sys2Proof.core k s = .next t) : t.Inv := by
  induction k generalizing s with
  | zero => cases h; exact hi
  | succ k ih =>
    cases hs : step s with
    | next u => rw [run_step hs] at h; exact ih (stepKeepsInvariant s u hi hs) h
    | fault e => simp [Host.Core.run, Sys2Proof.core, hs] at h
    | refused e => simp [Host.Core.run, Sys2Proof.core, hs] at h

/-- A scheduled receive of a well-formed frame enters its dispatch (R120, R121). -/
theorem step_recv_frame {s : State} {f : Frame} {o : DispOutcome} {w : List (Field × Int)} {rest : List Act}
    (h : configOk s.cfg = true) (hrun : s.phase = .run) (hs : s.sync = .recv) (hwf : f.wf = true)
    (hd : dispatchOf s.cfg f = .ok (o, w)) (hscript : s.script = .recv (.frame f) :: rest) :
    step s = .next { s.dispatching f (select s.cfg f) o w with script := rest } := by
  rw [step_enabled hscript (by simp [enabled, hrun, hs])]
  exact recv_frame_of_dispatchOf (s := { s with script := rest }) h hwf hd

/-- A scheduled end of dispatch with nothing pending enters `S_KICK` (R123). -/
theorem step_endDispatch {s : State} {rest : List Act} (hrun : s.phase = .run) (hs : s.sync = .dispatch)
    (hp : s.pend = []) (hscript : s.script = .endDispatch :: rest) :
    step s = .next { s with sync := .kick, script := rest } := by
  rw [step_enabled hscript (by simp [enabled, hrun, hs, hp])]
  rfl

/-- A scheduled beacon check in `S_KICK` is taken (R124). -/
theorem step_beaconCheck {s : State} {rest : List Act} (hrun : s.phase = .run) (hs : s.sync = .kick)
    (hscript : s.script = .beaconCheck :: rest) : step s = beaconCheck { s with script := rest } :=
  step_enabled hscript (by simp [enabled, hrun, hs])

/-- The state with the frame's writes performed and its beacon check next (R123). -/
def State.atBeaconCheck (s : State) (f : Frame) (o : DispOutcome) (order : List (Field × Int)) (todo : List Act) :
    State :=
  { s.dispatching f (select s.cfg f) o [] with
    record := applyWrites s.record order
    sync := .kick
    script := todo }

/-- A scheduled receive, the frame's writes in any order and `END_DISPATCH` lead to the beacon check (R120 to R123). -/
theorem run_to_beaconCheck {s : State} {f : Frame} {o : DispOutcome} {w order : List (Field × Int)} {todo : List Act}
    (hi : s.Inv) (hrun : s.phase = .run) (hs : s.sync = .recv) (hwf : f.wf = true)
    (hd : dispatchOf s.cfg f = .ok (o, w)) (horder : order.Perm w)
    (hscript : s.script = .recv (.frame f) :: (writeActs order ++ .endDispatch :: todo)) :
    Host.Core.run Sys2Proof.core (order.length + 2) s = .next (s.atBeaconCheck f o order todo) := by
  obtain ⟨q, hq, hwrites⟩ := run_writeActs (left := []) (rest := .endDispatch :: todo)
    (s := { s.dispatching f (select s.cfg f) o w with script := writeActs order ++ .endDispatch :: todo }) hrun rfl
    ((List.append_nil order).symm ▸ horder) rfl
  obtain rfl := hq.eq_nil
  rw [run_step (step_recv_frame hi.config hrun hs hwf hd hscript), run_add hwrites]
  refine run_step (step_endDispatch ?_ rfl rfl rfl) 0
  exact hrun

/-- What the beacon check keeps, with KICK or without (R99, R124). -/
theorem beaconCheck_frame {s t : State} (h : beaconCheck s = .next t) :
    t.sync = .wait ∧ t.record = s.record ∧ t.pend = s.pend ∧ t.script = s.script ∧ t.cfg = s.cfg ∧ t.now = s.now := by
  rcases beaconCheck_next h with h | rfl
  · obtain ⟨i, u, hd, hx, rfl⟩ := command_next h
    obtain ⟨-, hcfg, hrec, -, hnow, -, -, hpend, -, -, hscript, -⟩ := exec_command_frame hd hx
    exact ⟨rfl, hrec, hpend, hscript, hcfg, hnow⟩
  · exact ⟨rfl, rfl, rfl, rfl, rfl, rfl⟩

/-- Settles O42: the run to the beacon check, then the check, on a beacon or on any other frame. -/
theorem frameCompletesInAnyWriteOrder : Obligations.FrameCompletesInAnyWriteOrder := by
  intro s f o w order rest hi hrun hs hwf hd horder hscript
  have hto := run_to_beaconCheck hi hrun hs hwf hd horder hscript
  have hik : (s.atBeaconCheck f o order rest).Inv := (run_inv hi hto).reschedule rest s.drawCnt
  have hstep : step (s.atBeaconCheck f o order (.beaconCheck :: rest)) = beaconCheck (s.atBeaconCheck f o order rest) :=
    step_beaconCheck hrun rfl rfl
  obtain ⟨t, ht⟩ := hik.exists_beaconCheck
  obtain ⟨hsync, hrec, hpend, hrest, hcfg, hnow⟩ := beaconCheck_frame ht
  have hfields : (order.map Prod.fst).Perm (w.map Prod.fst) := horder.map _
  refine ⟨t, (run_add hto 1).trans (run_step (hstep.trans ht) 0), fun x hx => ?_, fun g hg => ?_, hpend, hsync, hrest,
    hcfg, hnow, fun hb => ?_, fun hb => ?_⟩
  · rw [hrec]
    exact get_applyWrites_of_mem (hfields.nodup_iff.mpr (runRule_fields_nodup hd))
      (fun y hy => (writesFit_of_dispatchOf hi.config hd y (horder.subset hy)).1) (horder.symm.subset hx) s.record
  · rw [hrec]
    exact get_applyWrites_of_notMem (mt hfields.mem_iff.mp hg) s.record
  · obtain ⟨u, -, hu, hkicked⟩ := beaconCheck_beacon hik hb
    cases ht.symm.trans hu
    exact hkicked
  · cases ht.symm.trans (beaconCheck_not_beacon hb)
    exact ⟨rfl, rfl, rfl, rfl⟩

/-! ### The return to `S_WAIT` -/

/-- How many states FAS may still go through before `S_WAIT` (R127). -/
def SyncState.toWait : SyncState → Nat
  | .wait => 0
  | .kick => 1
  | .dispatch => 2
  | .recv => 3

/-- What every step of FAS outside `S_WAIT` lowers: its way to `S_WAIT`, then the writes pending. -/
def State.fasRank (s : State) : ℕ ×ₗ ℕ := toLex (s.sync.toWait, s.pend.length)

theorem fasRank_lt_of_sync {s t : State} (h : t.sync.toWait < s.sync.toWait) : t.fasRank < s.fasRank :=
  Prod.Lex.toLex_lt_toLex.mpr (.inl h)

theorem fasRank_congr {s t : State} (hsync : t.sync = s.sync) (hpend : t.pend = s.pend) : t.fasRank = s.fasRank := by
  rw [State.fasRank, State.fasRank, hsync, hpend]

/-- A pending write performed lowers the rank (R122). -/
theorem fasRank_writeField {f : Field} {v : Int} {s t : State} (hp : (f, v) ∈ s.pend) (h : writeField f v s = .next t) :
    t.fasRank < s.fasRank := by
  cases h
  exact Prod.Lex.toLex_lt_toLex.mpr (.inr ⟨rfl, by
    rw [List.length_erase_of_mem hp]; exact Nat.sub_lt (List.length_pos_of_mem hp) Nat.one_pos⟩)

/-- A command leaves `sync_state` and `PEND` to FAS, whose own goes back to `S_WAIT` (R99, R124). -/
theorem command_sync_pend {by_ : Issuer} {w : BitVec 16} {s t : State} (h : command by_ w s = .next t) :
    t.sync = (if by_ = .fas then .wait else s.sync) ∧ t.pend = s.pend := by
  obtain ⟨i, u, hd, hx, rfl⟩ := command_next h
  obtain ⟨-, -, -, -, -, hsync, -, hpend, -⟩ := exec_command_frame hd hx
  cases by_ with
  | host | scheduler => exact ⟨hsync, hpend⟩
  | fas => exact ⟨rfl, hpend⟩

/-- Outside `S_WAIT` each step of FAS lowers the rank. -/
theorem fasRank_lt_of_fasAct {a : Act} {s t : State} (hs : s.sync ≠ .wait) (ha : isFasAct a = true)
    (he : enabled a s = true) (h : perform a s = .next t) : t.fasRank < s.fasRank := by
  cases a with
  | waitTake | waitTimeout | waitPoll => simp [enabled, hs] at he
  | recv a =>
    refine fasRank_lt_of_sync ?_
    simp only [enabled, Bool.and_eq_true, beq_iff_eq] at he
    rcases recv_next h with ⟨f, o, w, -, -, rfl⟩ | ⟨es, -, rfl⟩ <;> simp [he.2, SyncState.toWait]
  | write f v =>
    simp only [enabled, Bool.and_eq_true, List.contains_iff_mem] at he
    exact fasRank_writeField he.2 h
  | endDispatch =>
    simp only [enabled, Bool.and_eq_true, beq_iff_eq] at he
    cases h
    exact fasRank_lt_of_sync (by simp [he.1.2, SyncState.toWait])
  | beaconCheck =>
    simp only [enabled, Bool.and_eq_true, beq_iff_eq] at he
    exact fasRank_lt_of_sync (by rw [(beaconCheck_frame h).1, he.2]; decide)
  | command by_ w =>
    cases by_ with
    | host | scheduler => cases ha
    | fas =>
      have hsync := (command_sync_pend (by_ := .fas) h).1
      exact fasRank_lt_of_sync (by rw [hsync, (enabled_command he).2 rfl]; decide)
  | tick | irq | schedCheck | read _ | regRead _ | pendRead | regWrite _ _ | setMode _ | setAutoUpdate _
  | setGroundSpeed _ | takeConfig _ | configure _ | restart _ => cases ha

/-- In the run phase every other agent's step keeps the rank. -/
theorem fasRank_eq_of_not_fasAct {a : Act} {s t : State} (hrun : s.phase = .run) (ha : isFasAct a = false)
    (hr : isRestart a = false) (he : enabled a s = true) (h : perform a s = .next t) : t.fasRank = s.fasRank := by
  cases a with
  | waitTake | waitTimeout | waitPoll | recv _ | write _ _ | endDispatch | beaconCheck => cases ha
  | restart d => cases hr
  | takeConfig p | configure ok => simp [enabled, hrun] at he
  | command by_ w =>
    obtain ⟨hsync, hpend⟩ := command_sync_pend h
    cases by_ with
    | host | scheduler => exact fasRank_congr hsync hpend
    | fas => cases ha
  | schedCheck =>
    obtain ⟨hsync, hpend⟩ := command_sync_pend (by_ := .scheduler) h
    exact fasRank_congr hsync hpend
  | read n => obtain ⟨r, rfl⟩ := readField_next h; rfl
  | regWrite idx v => obtain ⟨en, filt, id, rfl⟩ := writeReg_next h; rfl
  | tick | irq | regRead _ | pendRead | setMode _ | setAutoUpdate _ | setGroundSpeed _ => cases h; rfl

/-- In every state of the run phase some step of FAS is enabled (R129). -/
theorem exists_fasAct_enabled {s : State} (hi : s.Inv) (hrun : s.phase = .run) :
    ∃ a, isFasAct a = true ∧ enabled a s = true := by
  obtain ⟨htimeout, hpoll, hrecv, hwrite, hend, hcheck⟩ := fasNeverDeadlocks s hi hrun
  cases hs : s.sync with
  | wait =>
    cases hm : s.cfg.rxMode with
    | irq => exact ⟨.waitTimeout, rfl, htimeout hs hm⟩
    | poll => exact ⟨.waitPoll, rfl, hpoll hs hm⟩
  | recv => exact ⟨.recv .none, rfl, (hrecv hs).1⟩
  | dispatch =>
    by_cases hp : s.pend = []
    · exact ⟨.endDispatch, rfl, hend hs hp⟩
    · obtain ⟨f, v, he⟩ := hwrite hs hp
      exact ⟨.write f v, rfl, he⟩
  | kick => exact ⟨.beaconCheck, rfl, (hcheck hs).1⟩

section
variable {tr : Nat → State} {acts : Nat → Act} (htr : IsRun tr acts) (hi : (tr 0).Inv) (hrun : (tr 0).phase = .run)
  (hr : ∀ n, isRestart (acts n) = false)
include htr hi hrun hr

/-- While FAS stays out of `S_WAIT` its rank never rises. -/
theorem isRun_fasRank_le {n m : Nat} (hs : ∀ j, n ≤ j → (tr j).sync ≠ .wait) (hle : n ≤ m) :
    (tr m).fasRank ≤ (tr n).fasRank := by
  induction m, hle using Nat.le_induction with
  | base => exact le_rfl
  | succ m hle ih =>
    refine le_trans ?_ ih
    obtain ⟨he, hp⟩ := htr m
    cases ha : isFasAct (acts m) with
    | true => exact (fasRank_lt_of_fasAct (hs m hle) ha he hp).le
    | false => exact (fasRank_eq_of_not_fasAct (isRun_keeps htr hi hrun hr m).2.1 ha (hr m) he hp).le

/-- FAS does not stay out of `S_WAIT` for good in a fair run: its rank would fall for ever. -/
theorem not_forever_out_of_wait (hfair : FairFas tr acts) {r : ℕ ×ₗ ℕ} :
    ∀ n, (tr n).fasRank = r → ¬ ∀ m, n ≤ m → (tr m).sync ≠ .wait := by
  induction r using WellFoundedLT.induction with
  | ind r ih =>
    rintro n rfl hs
    obtain ⟨m, hle, ha⟩ := hfair n fun m _ =>
      exists_fasAct_enabled (isRun_keeps htr hi hrun hr m).1 (isRun_keeps htr hi hrun hr m).2.1
    obtain ⟨he, hp⟩ := htr m
    have hlt := (fasRank_lt_of_fasAct (hs m hle) ha he hp).trans_le (isRun_fasRank_le htr hi hrun hr hs hle)
    exact ih _ hlt (m + 1) rfl fun j hj => hs j ((hle.trans (Nat.le_succ m)).trans hj)

end

/-- Settles O38: FAS cannot stay out of `S_WAIT` from point `n` on. -/
theorem fasAlwaysReturnsToWait : Obligations.FasAlwaysReturnsToWait := by
  intro tr acts htr hfair hi hrun hr n
  by_contra h
  push Not at h
  exact not_forever_out_of_wait htr hi hrun hr hfair n rfl h

end Sys2Proof.Machine

/-! ## Settled statements of `60_exceptions.md`: the reason a command word is refused for, and the cycle of FAS -/

namespace Sys2Proof.Machine

/-! ### The reason of a refusal -/

/-- An op that R75 does not list gives no command. -/
theorem cmdInstr_eq_none {op : BitVec 4} (h : op.toNat = 0 ∨ 6 ≤ op.toNat) (slot : BitVec 8) :
    cmdInstr op slot = none := by
  have hne : op ≠ 1#4 ∧ op ≠ 2#4 ∧ op ≠ 3#4 ∧ op ≠ 4#4 ∧ op ≠ 5#4 := by
    refine ⟨?_, ?_, ?_, ?_, ?_⟩ <;> rintro rfl <;> simp at h
  simp [cmdInstr, hne]

/-- Each op that R75 lists gives its command. -/
theorem exists_cmdInstr {op : BitVec 4} (h1 : 1 ≤ op.toNat) (h5 : op.toNat ≤ 5) (slot : BitVec 8) :
    ∃ i, cmdInstr op slot = some i := by
  have hop : op = 1#4 ∨ op = 2#4 ∨ op = 3#4 ∨ op = 4#4 ∨ op = 5#4 := by
    simp only [← BitVec.toNat_inj, BitVec.toNat_ofNat]; omega
  rcases hop with rfl | rfl | rfl | rfl | rfl <;> exact ⟨_, rfl⟩

/-- R75's issuer of an op, by the op's number. -/
theorem opIssuer_eq (op : BitVec 4) :
    opIssuer op = if op.toNat = 4 then .fas else if op.toNat = 5 then .scheduler else .host := by
  simp only [opIssuer, ← BitVec.toNat_inj, BitVec.toNat_ofNat, Nat.reducePow, Nat.reduceMod]

/-- R76's two wrong issuers: one who does not give the command, and the owner on `ACT_SLOT`. -/
theorem issuerOk_eq_false {p : Params} {by_ : Issuer} {op : BitVec 4} {slot : BitVec 8}
    (h : by_ ≠ opIssuer op ∨ (opIssuer op = .host ∧ slot.toNat = p.actSlot)) : issuerOk p by_ op slot = false := by
  by_cases hby : by_ = opIssuer op
  · obtain ⟨hhost, hact⟩ := h.resolve_left (not_not.mpr hby)
    simp [issuerOk, hby, hhost, hact]
  · simp [issuerOk, hby]

theorem decodeCommand_op {p : Params} {w : BitVec 16} (hop : cmdInstr (cmdOp w) (cmdSlot w) = none) (by_ : Issuer) :
    decodeCommand p by_ w = .error (.badCommand .op) := by
  simp only [decodeCommand, hop]

section
variable {p : Params} {w : BitVec 16} {i : Instr} (hi : cmdInstr (cmdOp w) (cmdSlot w) = some i)
include hi

theorem decodeCommand_rsv (hrsv : cmdRsv w ≠ 0#4) (by_ : Issuer) :
    decodeCommand p by_ w = .error (.badCommand .rsv) := by
  simp only [decodeCommand, hi, if_pos hrsv]

/-- After `rsv`, the two wrong slots of R76. -/
theorem decodeCommand_slot (hrsv : cmdRsv w = 0#4)
    (hslot : p.nTimers ≤ (cmdSlot w).toNat ∨ (cmdOp w = 4#4 ∧ (cmdSlot w).toNat ≠ p.actSlot)) (by_ : Issuer) :
    decodeCommand p by_ w = .error (.badCommand .slot) := by
  simp only [decodeCommand, hi, if_neg (not_not.mpr hrsv)]
  rcases hslot with hlen | hkick
  · rw [if_pos hlen]
  · rw [if_pos hkick, ite_self]

/-- Last of all the issuer. -/
theorem decodeCommand_issuer (hrsv : cmdRsv w = 0#4) (hlen : (cmdSlot w).toNat < p.nTimers)
    (hkick : cmdOp w = 4#4 → (cmdSlot w).toNat = p.actSlot) {by_ : Issuer}
    (hissuer : issuerOk p by_ (cmdOp w) (cmdSlot w) = false) :
    decodeCommand p by_ w = .error (.badCommand .issuer) := by
  simp only [decodeCommand, hi, if_neg (not_not.mpr hrsv), if_neg (Nat.not_le.mpr hlen), hissuer]
  rw [if_neg (fun h => h.2 (hkick h.1)), if_neg Bool.false_ne_true]

end

/-- Settles O7: the decoder's four checks in their order, each said of the word's numbers. -/
theorem commandReasonIsFirstInOrder : Obligations.CommandReasonIsFirstInOrder := by
  intro s by_ w op rsv slot
  have hop : (cmdOp w).toNat = op := cmdOp_toNat w
  have hslot : (cmdSlot w).toNat = slot := cmdSlot_toNat w
  have hrsv : cmdRsv w = 0#4 ↔ rsv = 0 := by rw [← BitVec.toNat_inj, cmdRsv_toNat]; rfl
  have hkick : cmdOp w = 4#4 ↔ op = 4 := by rw [← BitVec.toNat_inj, hop]; rfl
  have hinstr (h1 : 1 ≤ op) (h5 : op ≤ 5) : ∃ i, cmdInstr (cmdOp w) (cmdSlot w) = some i :=
    exists_cmdInstr (hop ▸ h1) (hop ▸ h5) _
  refine ⟨fun h => ?_, fun h1 h5 hr => ?_, fun h1 h5 hr hs => ?_, fun h1 h5 hr hlen hact hby => ?_⟩
  · exact command_error (decodeCommand_op (cmdInstr_eq_none (hop ▸ h) _) by_)
  · obtain ⟨i, hi⟩ := hinstr h1 h5
    exact command_error (decodeCommand_rsv hi (mt hrsv.mp hr) by_)
  · obtain ⟨i, hi⟩ := hinstr h1 h5
    exact command_error (decodeCommand_slot hi (hrsv.mpr hr) (by rwa [hslot, hkick]) by_)
  · obtain ⟨i, hi⟩ := hinstr h1 h5
    refine command_error (decodeCommand_issuer hi (hrsv.mpr hr) (hslot.symm ▸ hlen) (by rwa [hslot, hkick])
      (issuerOk_eq_false ?_))
    rw [opIssuer_eq, hop, hslot]
    refine hby.imp_right fun ⟨h3, hact⟩ => ⟨?_, hact⟩
    rw [if_neg (by omega), if_neg (by omega)]

/-! ### The cycle of FAS -/

/-- What a step does to `sync_state` (R127): leaves FAS where it is, or takes it one state on in its cycle, or back to
`S_WAIT`. -/
inductive SyncMove (s t : State) : Prop
  /-- FAS stays, with its frame; only in `S_DISPATCH` can `PEND` change. -/
  | stays (hsync : t.sync = s.sync) (hfrm : t.frm = s.frm) (hpend : s.sync ≠ .dispatch → t.pend = s.pend)
  /-- A wait ends (R119). -/
  | toRecv (hs : s.sync = .wait) (ht : t.sync = .recv)
  /-- A frame is received (R120, R121). -/
  | toDispatch (hs : s.sync = .recv) (ht : t.sync = .dispatch)
  /-- The last write is performed (R123). -/
  | toKick (hs : s.sync = .dispatch) (hpend : s.pend = []) (ht : t.sync = .kick) (hpend' : t.pend = [])
      (hfrm : t.frm = s.frm)
  /-- FAS is in `S_WAIT`: nothing received, the beacon check, or a restart (R120, R124, R153). -/
  | toWait (ht : t.sync = .wait)

theorem SyncMove.of_eq {s t : State} (hsync : t.sync = s.sync) (hfrm : t.frm = s.frm) (hpend : t.pend = s.pend) :
    SyncMove s t :=
  .stays hsync hfrm fun _ => hpend

/-- A command leaves FAS where it is, unless it is FAS's own (R99, R124). -/
theorem command_syncMove {by_ : Issuer} {w : BitVec 16} {s t : State} (h : command by_ w s = .next t) :
    SyncMove s t := by
  obtain ⟨i, u, hd, hx, rfl⟩ := command_next h
  obtain ⟨-, -, -, -, -, hsync, hfrm, hpend, -⟩ := exec_command_frame hd hx
  cases by_ with
  | host | scheduler => exact .of_eq hsync hfrm hpend
  | fas => exact .toWait rfl

/-- Every enabled step of the run phase is one of the cycle's moves (R127). -/
theorem perform_syncMove {a : Act} {s t : State} (hrun : s.phase = .run) (he : enabled a s = true)
    (h : perform a s = .next t) : SyncMove s t := by
  cases a with
  | waitTake | waitTimeout | waitPoll =>
    simp only [enabled, Bool.and_eq_true, beq_iff_eq] at he
    cases h
    exact .toRecv (by simp [he]) rfl
  | recv a =>
    simp only [enabled, Bool.and_eq_true, beq_iff_eq] at he
    rcases recv_next h with ⟨f, o, w, -, -, rfl⟩ | ⟨es, -, rfl⟩
    · exact .toDispatch he.2 rfl
    · exact .toWait rfl
  | write f v =>
    obtain ⟨hs, -⟩ := (enabled_write_iff hrun).mp he
    cases h
    exact .stays rfl rfl fun hne => absurd hs hne
  | endDispatch =>
    obtain ⟨hs, hpend⟩ := (enabled_endDispatch_iff hrun).mp he
    cases h
    exact .toKick hs hpend rfl hpend rfl
  | beaconCheck => exact .toWait (beaconCheck_frame h).1
  | restart d => cases h; exact .toWait rfl
  | command by_ w => exact command_syncMove h
  | schedCheck => exact command_syncMove (by_ := .scheduler) h
  | read n => obtain ⟨r, rfl⟩ := readField_next h; exact .of_eq rfl rfl rfl
  | regWrite idx v => obtain ⟨en, filt, id, rfl⟩ := writeReg_next h; exact .of_eq rfl rfl rfl
  | takeConfig p | configure ok => simp [enabled, hrun] at he
  | tick | irq | regRead _ | pendRead | setMode _ | setAutoUpdate _ | setGroundSpeed _ =>
    cases h
    exact .of_eq rfl rfl rfl

/-- What is scheduled has no part in FAS's cycle. -/
theorem SyncMove.of_reschedule {s t : State} {sc : List Act} {dc : Nat}
    (h : SyncMove { s with script := sc, drawCnt := dc } t) : SyncMove s t := by
  cases h with
  | stays hsync hfrm hpend => exact .stays hsync hfrm hpend
  | toRecv hs ht => exact .toRecv hs ht
  | toDispatch hs ht => exact .toDispatch hs ht
  | toKick hs hpend ht hpend' hfrm => exact .toKick hs hpend ht hpend' hfrm
  | toWait ht => exact .toWait ht

theorem step_syncMove {s t : State} (hrun : s.phase = .run) (h : step s = .next t) : SyncMove s t := by
  rcases step_cases h with ⟨a, rest, -, he, h⟩ | ⟨-, a, he, h⟩ | ⟨-, rfl⟩
  · exact .of_reschedule (dc := s.drawCnt) (perform_syncMove (s := { s with script := rest }) hrun he h)
  · exact .of_reschedule (sc := s.script) (perform_syncMove (s := { s with drawCnt := s.drawCnt + 1 }) hrun he h)
  · exact .of_eq rfl rfl rfl

/-- Settles O55: the moves of the cycle read off, with `PEND` empty in `S_KICK` by the invariant. -/
theorem beaconCheckAfterAllWrites : Obligations.BeaconCheckAfterAllWrites := by
  intro s t hi hrun h
  cases step_syncMove hrun h with
  | stays hsync hfrm hpend =>
    refine ⟨fun ht => ?_, fun ht => .inr (hsync.symm.trans ht), fun ht => .inr ⟨hsync.symm.trans ht, hfrm⟩⟩
    have hs : s.sync = .kick := hsync.symm.trans ht
    have hne : s.sync ≠ .dispatch := by simp [hs]
    exact ⟨(hpend hne).trans (hi.pendEmpty hne), hfrm, .inl hs⟩
  | toRecv hs ht => simp [hs, ht]
  | toDispatch hs ht => simp [hs, ht]
  | toKick hs hpend ht hpend' hfrm => simp [hs, hpend, ht, hpend', hfrm]
  | toWait ht => simp [ht]

end Sys2Proof.Machine

/-! ## Settled statements of `70_reset_and_hazards.md`: reset, the boot order and the restart, and the two hazards of the
Activity Watchdog, a beacon against its expiry and an Off transition that comes too early -/

namespace Sys2Proof.Machine

/-! ### Restart and the boot order -/

/-- Settles O50: the restart's state is the reset state with another schedule, and its slots are as configured. -/
theorem restartDiscardsEverything : Obligations.RestartDiscardsEverything := fun s d =>
  ⟨rfl, _, rfl, rfl, isOn_configured rfl, (resetWith_inv d).reschedule s.script s.drawCnt⟩

/-- Settles O49: every other step asks for the run phase. -/
theorem nothingRunsBeforeStartup : Obligations.NothingRunsBeforeStartup := by
  intro s a hs he
  cases a with
  | takeConfig p => exact .inl ⟨p, rfl, beq_iff_eq.mp he⟩
  | configure ok => exact .inr (.inl ⟨ok, rfl, beq_iff_eq.mp he⟩)
  | restart d => exact .inr (.inr rfl)
  | command by_ w => exact absurd (enabled_command he).1 hs
  | tick | irq | waitTake | waitTimeout | waitPoll | recv _ | write _ _ | endDispatch | beaconCheck | schedCheck | read _
  | regRead _ | pendRead | regWrite _ _ | setMode _ | setAutoUpdate _ | setGroundSpeed _ => simp [enabled, hs] at he

/-- A scheduled checked configuration is taken in the configuration phase (R149 step 2). -/
theorem step_takeConfig {s : State} {p : Params} {rest : List Act} (hs : s.phase = .config) (hp : configOk p = true)
    (hscript : s.script = .takeConfig p :: rest) : step s = .next ({ s with script := rest }.configured p) :=
  (step_enabled hscript (by simp [enabled, hs])).trans (takeConfig_ok _ hp)

/-- A scheduled answer to `configure` is taken after the configuration (R149 step 3, R150). -/
theorem step_configure {s : State} {ok : Bool} {rest : List Act} (hs : s.phase = .setup)
    (hscript : s.script = .configure ok :: rest) : step s = configureSource ok { s with script := rest } :=
  step_enabled hscript (by simp [enabled, hs])

/-- The boot order is two steps: the configuration, then the answer to `configure` (R149, R150). -/
theorem run_boot {s : State} {p : Params} {ok : Bool} {rest : List Act} (hs : s.phase = .config)
    (hp : configOk p = true) (hscript : s.script = .takeConfig p :: .configure ok :: rest) :
    Host.Core.run Sys2Proof.core 2 s = configureSource ok ({ s with script := rest }.configured p) := by
  rw [run_step (step_takeConfig hs hp hscript), run_step (step_configure rfl rfl)]
  rfl

/-- Settles O48: `run_boot` from reset, its end read off field by field. -/
theorem bootOrderFromReset : Obligations.BootOrderFromReset := by
  intro d p ok rest hp
  have hrun := run_boot (s := { State.resetWith d with script := .takeConfig p :: .configure ok :: rest }) (rest := rest)
    rfl hp rfl
  refine ⟨_, hrun, rfl, rfl, Rec.get_zero, map_init_slot _, fun x hx => ?_, isOn_configured rfl, rfl, rfl, rfl, rfl, rfl,
    rfl, rfl, rfl, rfl, rfl, rfl, rfl, rfl, run_inv ((resetWith_inv d).reschedule _ _) hrun⟩
  obtain ⟨i, -, rfl⟩ := List.mem_map.mp hx
  exact ⟨rfl, rfl⟩

/-! ### A beacon against an expiry -/

/-- The scheduler's check of the expired Activity Watchdog turns it Off, with the sink and the events of R108. -/
theorem schedCheck_expired {s : State} {x : Timer} (hi : s.Inv) (hidx : s.schIdx.toNat = s.cfg.actSlot)
    (hx : s.tmr[s.cfg.actSlot]? = some x) (hexp : expired s.now x = true) :
    ∃ u, schedCheck s = .next u ∧ u.isOn = false ∧ u.mode = .idle ∧
      u.evh = s.evh ++ stoppedEvents s.cfg.gaugeRestOnStop ∧ u.cfg = s.cfg ∧ u.frm = s.frm := by
  have hxk : s.tmr[s.schIdx.toNat]? = some x := hidx ▸ hx
  obtain ⟨hrep, hcb⟩ := hi.repeats_cb_of_actSlot hx
  refine ⟨_, schedCheck_of_slot hi.schIdx hxk, (State.isOn_checked hxk).trans ?_, ?_, ?_, rfl, rfl⟩
  · rw [if_pos hidx, Timer.checked_of_expired hexp, hrep]
  · simp [State.checked, stopsActivity, hexp, hcb]
  · simp [State.checked, checkEvents, hexp, hcb]

/-- The beacon check's word on a beacon goes to `ACT_SLOT`, whatever the kick does there (R103, R124). -/
theorem beaconCheck_of_kick {s u : State} (hi : s.Inv) (hb : isBeacon s.cfg s.frm = true)
    (h : execKick (BitVec.ofNat 8 s.cfg.actSlot) s = .next u) : beaconCheck s = .next { u with sync := .wait } :=
  beaconCheck_beacon_ok hb (decodeCommand_kickWord hi.config) h

/-- A beacon that finds the Activity Watchdog Off starts it, with the sink and the events of R107. -/
theorem beaconCheck_off {s : State} (hi : s.Inv) (hb : isBeacon s.cfg s.frm = true) (hoff : s.isOn = false) :
    ∃ t, beaconCheck s = .next t ∧ t.isOn = true ∧ t.mode = .ready ∧
      t.evh = s.evh ++ [.activityStarted, .modeSet .ready, .autoUpdate true, .gaugeStandby false] := by
  obtain ⟨x, hx, -⟩ := hi.actSlot
  obtain ⟨-, hk⟩ := actSlot_toNat hi.config
  have hxk : s.tmr[(BitVec.ofNat 8 s.cfg.actSlot).toNat]? = some x := hk.symm ▸ hx
  have hkick := execKick_off hxk hk ((State.isOn_of_slot hx).symm.trans hoff)
  exact ⟨_, beaconCheck_of_kick hi hb hkick, (State.isOn_setTimer hxk).trans (if_pos hk), rfl, rfl⟩

/-- A beacon that finds the Activity Watchdog On moves its `LAST_RESET` to `NOW`, and nothing else but FAS (R103). -/
theorem beaconCheck_on {s : State} {x : Timer} (hi : s.Inv) (hb : isBeacon s.cfg s.frm = true)
    (hx : s.tmr[s.cfg.actSlot]? = some x) (hon : x.running = true) :
    beaconCheck s = .next { s.setTimer s.cfg.actSlot { x with lastReset := s.now } with sync := .wait } := by
  obtain ⟨-, hk⟩ := actSlot_toNat hi.config
  have hkick := beaconCheck_of_kick hi hb (execKick_on (hk.symm ▸ hx) hk hon)
  rwa [hk] at hkick

/-- No slot has a zero timeout (R8 item 2). -/
theorem State.Inv.timeout_pos {s : State} (hi : s.Inv) {k : Nat} {x : Timer} (hx : s.tmr[k]? = some x) :
    1 ≤ x.timeout.toNat := by
  have hok := hi.config
  simp only [configOk, Bool.and_eq_true] at hok
  obtain ⟨⟨⟨⟨⟨-, htimeouts⟩, -⟩, -⟩, -⟩, -⟩ := hok
  have hmem : x.init ∈ s.cfg.tmrInit := hi.slots ▸ List.mem_map_of_mem (List.mem_of_getElem? hx)
  exact timeoutsOk_iff.mp htimeouts x.init hmem

/-- A slot of the registry that was reset this tick has not expired (R27, R98). -/
theorem State.Inv.not_expired_of_reset {s : State} (hi : s.Inv) {k : Nat} {x : Timer} (hx : s.tmr[k]? = some x)
    (hreset : x.lastReset = s.now) : ¬ expired s.now x = true := by
  have hpos := hi.timeout_pos hx
  rw [expired_iff, hreset, BitVec.sub_self]
  rintro ⟨-, hle⟩
  exact absurd (hpos.trans hle) (by simp)

/-- A check of a slot that was reset this tick is the advance alone (R104, R105). -/
theorem schedCheck_of_reset {s : State} {k : Nat} {x : Timer} (hi : s.Inv) (hk : s.schIdx.toNat = k)
    (hx : s.tmr[k]? = some x) (hreset : x.lastReset = s.now) : schedCheck s = .next s.advance := by
  subst hk
  rw [schedCheck_of_slot hi.schIdx hx, State.checked_of_not_expired hx (hi.not_expired_of_reset hx hreset)]

/-- Settles O26: the check's Off, then the kick's On; or the kick's reset, after which the check finds no expiry. -/
theorem beaconAgainstExpiry : Obligations.BeaconAgainstExpiry := by
  intro s x hi hrun hs hb hidx hx hexp
  constructor
  · obtain ⟨u, hu, huoff, huidle, huevh, hucfg, hufrm⟩ := schedCheck_expired hi hidx hx hexp
    have hiu : u.Inv := perform_inv (a := .schedCheck) hi (by simp [enabled, hrun]) hu
    obtain ⟨t, ht, hton, htready, htevh⟩ := beaconCheck_off hiu (by rw [hucfg, hufrm, hb]) huoff
    refine ⟨u, t, hu, ht, huoff, hton, huidle, htready, ?_⟩
    rw [htevh, huevh, stoppedEvents, ← List.append_assoc s.evh]
  · have hon := (expired_iff.mp hexp).1
    have hkick := beaconCheck_on hi hb hx hon
    have hiu := perform_inv (a := .beaconCheck) hi ((enabled_beaconCheck_iff hrun).mpr hs) hkick
    have hslot : (s.setTimer s.cfg.actSlot { x with lastReset := s.now }).tmr[s.cfg.actSlot]? =
        some { x with lastReset := s.now } :=
      List.getElem?_set_self (List.getElem?_eq_some_iff.mp hx).1
    have hison : (s.setTimer s.cfg.actSlot { x with lastReset := s.now }).isOn = true :=
      (State.isOn_of_slot hslot).trans hon
    exact ⟨_, _, hkick, schedCheck_of_reset hiu hidx hslot rfl, hison, hison, rfl, rfl, rfl, _, hslot, rfl⟩

/-! ### Who moves `LAST_RESET` of the Activity Watchdog -/

/-- `TMR[ACT_SLOT].LAST_RESET`. -/
def State.actReset (s : State) : Option (BitVec 32) := s.tmr[s.cfg.actSlot]?.map Timer.lastReset

/-- `LAST_RESET` of the Activity Watchdog after a slot's update. -/
theorem State.actReset_setTimer {s : State} {k : Nat} {x y : Timer} (hx : s.tmr[k]? = some x) :
    (s.setTimer k y).actReset = if k = s.cfg.actSlot then some y.lastReset else s.actReset := by
  obtain ⟨hlt, -⟩ := List.getElem?_eq_some_iff.mp hx
  unfold State.actReset State.setTimer
  rw [List.getElem?_set]
  by_cases hk : k = s.cfg.actSlot
  · simp [hk, hk ▸ hlt]
  · simp [hk]

/-- A command of a slot's owner goes to another slot (R24). -/
theorem ownerCommand_actReset {k : BitVec 8} {s t : State} {u : Timer → Timer} (h : ownerCommand k s u = .next t) :
    t.actReset = s.actReset := by
  obtain ⟨x, hx, hne, rfl⟩ := ownerCommand_next h
  rw [State.actReset_setTimer hx, if_neg hne]

/-- A kick goes to `ACT_SLOT` and leaves its `LAST_RESET` at `NOW` (R103). -/
theorem execKick_actReset {k : BitVec 8} {s t : State} (h : execKick k s = .next t) : t.actReset = some s.now := by
  obtain ⟨x, hx, hact, ⟨-, rfl⟩ | ⟨-, rfl⟩⟩ := execKick_next h <;> exact (State.actReset_setTimer hx).trans (if_pos hact)

/-- A check disarms the Activity Watchdog and never re-arms it, since it does not repeat (R8 item 3, R104). -/
theorem execCheck_actReset {k : BitVec 8} {s t : State} (hi : s.Inv) (h : execCheck k s = .next t) :
    t.actReset = s.actReset := by
  obtain ⟨x, hx, -⟩ := execCheck_next h
  rw [execCheck_of_slot hx] at h
  cases h
  refine (State.actReset_setTimer hx).trans ?_
  split
  case isFalse => rfl
  case isTrue hk =>
    rw [hk] at hx
    obtain ⟨hrep, -⟩ := hi.repeats_cb_of_actSlot hx
    simp [State.actReset, hx, Timer.checked_eq, hrep, apply_ite Timer.lastReset]

/-- Of all commands only FAS's, which is the kick, moves `LAST_RESET` of the Activity Watchdog (R24, R75, R97). -/
theorem command_actReset {by_ : Issuer} {w : BitVec 16} {s t : State} (hi : s.Inv) (h : command by_ w s = .next t) :
    t.actReset = s.actReset ∨ (by_ = .fas ∧ t.actReset = some s.now) := by
  obtain ⟨i, u, hd, hx, rfl⟩ := command_next h
  have hafter : (u.afterCommand by_).actReset = u.actReset := by cases by_ <;> rfl
  rw [hafter]
  rcases decodeCommand_ok hd with rfl | rfl | rfl | rfl | rfl
  · exact .inl (ownerCommand_actReset hx)
  · exact .inl (ownerCommand_actReset hx)
  · exact .inl (ownerCommand_actReset hx)
  · have hport : Port.commands .fas = .commands by_ := (decodeCommand_ok_iff.mp hd).2.1
    cases hport
    exact .inr ⟨rfl, execKick_actReset hx⟩
  · exact .inl (execCheck_actReset hi hx)

/-- A step leaves `LAST_RESET` of the Activity Watchdog as it is, or is a beacon's kick and sets it to `NOW` (R157). -/
def ResetOnlyByBeacon (s t : State) : Prop :=
  t.actReset = s.actReset ∨ (t.actReset = some s.now ∧ s.sync = .kick ∧ isBeacon s.cfg s.frm = true)

/-- FAS puts a word on the command port in its kick step on a beacon only (R124). -/
theorem command_resetOnlyByBeacon {by_ : Issuer} {w : BitVec 16} {s t : State} (hi : s.Inv)
    (he : enabled (.command by_ w) s = true) (h : command by_ w s = .next t) : ResetOnlyByBeacon s t := by
  rcases command_actReset hi h with hkept | ⟨rfl, hnow⟩
  · exact .inl hkept
  · simp only [enabled, Bool.and_eq_true, beq_iff_eq] at he
    obtain ⟨⟨-, hsync⟩, hbeacon⟩ := he
    exact .inr ⟨hnow, hsync, hbeacon⟩

/-- Every enabled step that stays in the run phase moves `LAST_RESET` of the Activity Watchdog by a beacon's kick only. -/
theorem perform_resetOnlyByBeacon {a : Act} {s t : State} (hi : s.Inv) (hrun : s.phase = .run)
    (he : enabled a s = true) (h : perform a s = .next t) (ht : t.phase = .run) : ResetOnlyByBeacon s t := by
  cases a with
  | command by_ w => exact command_resetOnlyByBeacon hi he h
  | schedCheck => exact command_resetOnlyByBeacon (by_ := .scheduler) hi he h
  | beaconCheck =>
    cases hb : isBeacon s.cfg s.frm with
    | true =>
      have hkick : command .fas (kickWord s.cfg) s = .next t := by rwa [perform, beaconCheck, if_pos hb] at h
      exact command_resetOnlyByBeacon hi (by rw [enabled, hb, Bool.and_true]; exact he) hkick
    | false => cases (beaconCheck_not_beacon hb).symm.trans h; exact .inl rfl
  | recv a => rcases recv_next h with ⟨f, o, w, -, -, rfl⟩ | ⟨es, -, rfl⟩ <;> exact .inl rfl
  | read n => obtain ⟨r, rfl⟩ := readField_next h; exact .inl rfl
  | regWrite idx v => obtain ⟨en, filt, id, rfl⟩ := writeReg_next h; exact .inl rfl
  | takeConfig p | configure ok => simp [enabled, hrun] at he
  | restart d => cases h; cases ht
  | tick | irq | waitTake | waitTimeout | waitPoll | write _ _ | endDispatch | regRead _ | pendRead | setMode _
  | setAutoUpdate _ | setGroundSpeed _ => cases h; exact .inl rfl

theorem step_resetOnlyByBeacon {s t : State} (hi : s.Inv) (hrun : s.phase = .run) (h : step s = .next t)
    (ht : t.phase = .run) : ResetOnlyByBeacon s t := by
  rcases step_cases h with ⟨a, rest, -, he, h⟩ | ⟨-, a, he, h⟩ | ⟨-, rfl⟩
  · exact perform_resetOnlyByBeacon (s := { s with script := rest }) (hi.reschedule rest s.drawCnt) hrun he h ht
  · exact perform_resetOnlyByBeacon (s := { s with drawCnt := s.drawCnt + 1 }) (hi.reschedule s.script (s.drawCnt + 1))
      hrun he h ht
  · exact .inl rfl

/-! ### No Off transition before the timeout -/

/-- The run phase ends in a restart, which empties the history (R143, R153). -/
theorem perform_run_or_empty {a : Act} {s t : State} (hrun : s.phase = .run) (he : enabled a s = true)
    (h : perform a s = .next t) : t.phase = .run ∨ t.evh = [] := by
  cases hr : isRestart a with
  | false => exact .inl (perform_phase_schIdx hrun he hr h).1
  | true =>
    cases a with
    | restart d => cases h; exact .inr rfl
    | _ => cases hr

theorem step_run_or_empty {s t : State} (hrun : s.phase = .run) (h : step s = .next t) :
    t.phase = .run ∨ t.evh = [] := by
  rcases step_cases h with ⟨a, rest, -, he, h⟩ | ⟨-, a, he, h⟩ | ⟨-, rfl⟩
  · exact perform_run_or_empty (s := { s with script := rest }) hrun he h
  · exact perform_run_or_empty (s := { s with drawCnt := s.drawCnt + 1 }) hrun he h
  · exact .inl hrun

/-- A step that adds a STOPPED stays in the run phase and is the check that stops the Activity Watchdog (R108, R110). -/
theorem stopped_of_stoppedCount_lt {s t : State} (hi : s.Inv) (hrun : s.phase = .run) (h : step s = .next t)
    (hlt : stoppedCount s.evh < stoppedCount t.evh) : t.phase = .run ∧ s.isOn = true ∧ t.isOn = false := by
  rcases step_run_or_empty hrun h with ht | hempty
  · obtain ⟨hstart, -, hsame⟩ := activityTransitionsAreTheTables s t hi hrun h ht
    refine ⟨ht, ?_⟩
    cases hs : s.isOn <;> cases hton : t.isOn
    case true.false => exact ⟨rfl, rfl⟩
    case false.true =>
      obtain ⟨-, -, -, hevh⟩ := hstart hs hton
      simp [stoppedCount, hevh] at hlt
    all_goals exact absurd (hsame (hs.trans hton.symm)).2 (by omega)
  · simp [stoppedCount, hempty] at hlt

/-- Settles O28: the Off transition is R110's, and `step_resetOnlyByBeacon` has the slot's `LAST_RESET`. -/
theorem offTransitionNeverEarly : Obligations.OffTransitionNeverEarly := by
  intro s t x hi hrun h hx
  refine ⟨fun hlt => ?_, fun ht y hy hne => ?_⟩
  · obtain ⟨ht, hon, hoff⟩ := stopped_of_stoppedCount_lt hi hrun h hlt
    obtain ⟨-, hstop, -⟩ := activityTransitionsAreTheTables s t hi hrun h ht
    obtain ⟨-, ⟨x', hx', helapsed⟩, -⟩ := hstop hon hoff
    cases hx.symm.trans hx'
    exact ⟨(State.isOn_of_slot hx).symm.trans hon, helapsed, hoff⟩
  · obtain ⟨hcfg, -⟩ := configurationReadOnlyInRunPhase s t hrun h ht
    have hxreset : s.actReset = some x.lastReset := by simp [State.actReset, hx]
    have hyreset : t.actReset = some y.lastReset := by simp [State.actReset, hcfg, hy]
    rcases step_resetOnlyByBeacon hi hrun h ht with hkept | ⟨hnow, hsync, hbeacon⟩
    · exact absurd (Option.some.inj (hyreset.symm.trans (hkept.trans hxreset))) hne
    · exact ⟨Option.some.inj (hyreset.symm.trans hnow), hsync, hbeacon⟩

end Sys2Proof.Machine
